-- ==== Sys2Proof/Word.lean ====
section
/-! DEFINITION. The word types of the block (R9): a 16-bit byte address, 32-bit data, and bytes. -/

namespace Sys2Proof

/-- A 32-bit bus word (R9). -/
abbrev Word := BitVec 32

/-- A byte of the row or of the payload. -/
abbrev Byte := BitVec 8

/-- A 16-bit byte address on the bus (R9). -/
abbrev BusAddr := BitVec 16

end Sys2Proof
end

