-- ==== Sys2Proof/Syntax.lean ====
section
/-! DEFINITION. The instructions: one constructor per row of spec/opcode_table.json (R82, R91). -/

namespace Sys2Proof

/-- The six commands written to CMD (R82) and the two bus writes with a side effect (R91). A command has no operand
field (R81). The two bus rows carry the data of the write; their address bits 1:0 are ignored (R66) and so are no
part of the instruction. -/
inductive Instr where
  /-- NOP (R180). -/
  | nop
  /-- SCAN_ROW (R160). -/
  | scanRow
  /-- FIND (R103). -/
  | find
  /-- DECODE (R125). -/
  | decode
  /-- EXTRACT (R149). -/
  | extract
  /-- CLEAR_COUNTS (R181). -/
  | clearCounts
  /-- A write of `data` to RES_POP (R182). -/
  | resPop (data : Word)
  /-- A write of `data` to STATUS (R183). -/
  | statusW1c (data : Word)
deriving DecidableEq, Repr

end Sys2Proof
end

