-- ==== Sys2Proof/Decode.lean ====
section
/-! DEFINITION. The register map of R20 as addresses, the command decoder of R80 to R82, the decoder of a whole bus
write, and the encoder. Decoding is total: what is no instruction is rejected by name. -/

namespace Sys2Proof

/-- The registers of R20's map below the RAW window. -/
inductive Reg where
  | cmd | status | irqEn | resPop | rowLen | start | rowIdx | matchPos | decCount
  | payload0 | payload1 | payload2 | resId | resFlags | resData | resPos
  | readingCount | sanityFailCount | param0 | param1
deriving DecidableEq, Repr

/-- The offset column of R20. -/
def Reg.addr : Reg → BusAddr
  | .cmd => 0x000#16
  | .status => 0x004#16
  | .irqEn => 0x008#16
  | .resPop => 0x00C#16
  | .rowLen => 0x010#16
  | .start => 0x014#16
  | .rowIdx => 0x018#16
  | .matchPos => 0x01C#16
  | .decCount => 0x020#16
  | .payload0 => 0x024#16
  | .payload1 => 0x028#16
  | .payload2 => 0x02C#16
  | .resId => 0x030#16
  | .resFlags => 0x034#16
  | .resData => 0x038#16
  | .resPos => 0x03C#16
  | .readingCount => 0x040#16
  | .sanityFailCount => 0x044#16
  | .param0 => 0x048#16
  | .param1 => 0x04C#16

/-- Every register of R20's map, in its order. -/
def Reg.all : List Reg :=
  [.cmd, .status, .irqEn, .resPop, .rowLen, .start, .rowIdx, .matchPos, .decCount, .payload0,
   .payload1, .payload2, .resId, .resFlags, .resData, .resPos, .readingCount, .sanityFailCount,
   .param0, .param1]

/-- The word a bus access goes to: address bits 1:0 are ignored (R66). -/
def wordAddr (a : BusAddr) : BusAddr := a &&& 0xFFFC#16

/-- The register at a bus address, if R20 lists one. -/
def regAt (a : BusAddr) : Option Reg :=
  Reg.all.find? fun r => r.addr == wordAddr a

/-- One host write: 32 bits of data at a byte address (R66). -/
structure BusWrite where
  addr : BusAddr
  data : Word
deriving DecidableEq, Repr

/-- The registers whose write only stores (R184, R185). -/
inductive LoadReg where
  | irqEn | rowLen | start | rowIdx
deriving DecidableEq, Repr

/-- The bus writes that are no instruction, each by name. -/
inductive Undecoded where
  /-- A CMD word with a reserved bit set or an opcode above 5 (R86). -/
  | illegalCmd
  /-- A write that only stores into a register (R184, R185). -/
  | load (r : LoadReg)
  /-- A write to a read-only register (R51). -/
  | readOnly
  /-- A write to an address with no register: the RAW window or unmapped (R60, R68). -/
  | noRegister
deriving DecidableEq, Repr

/-- The OPCODE field of a CMD word (R81). -/
def cmdOpcode (v : Word) : BitVec 4 := v.extractLsb' 0 4

/-- The RSVD field of a CMD word (R81). -/
def cmdReserved (v : Word) : BitVec 28 := v.extractLsb' 4 28

/-- The opcode map of R82: a word selects a command exactly when bits 31:4 are 0 and the opcode is at most 5. -/
def decodeCmd (v : Word) : Option Instr :=
  if cmdReserved v = 0#28 then
    match (cmdOpcode v).toNat with
    | 0 => some .nop
    | 1 => some .scanRow
    | 2 => some .find
    | 3 => some .decode
    | 4 => some .extract
    | 5 => some .clearCounts
    | _ => none
  else none

/-- The decoder of a host write: a CMD word through R82, the two bus rows of R91 by their word address, and
everything else rejected by name. -/
def decode (w : BusWrite) : Except Undecoded Instr :=
  match regAt w.addr with
  | some .cmd =>
    match decodeCmd w.data with
    | some i => .ok i
    | none => .error .illegalCmd
  | some .status => .ok (.statusW1c w.data)
  | some .resPop => .ok (.resPop w.data)
  | some .irqEn => .error (.load .irqEn)
  | some .rowLen => .error (.load .rowLen)
  | some .start => .error (.load .start)
  | some .rowIdx => .error (.load .rowIdx)
  | some .matchPos | some .decCount | some .payload0 | some .payload1 | some .payload2
  | some .resId | some .resFlags | some .resData | some .resPos
  | some .readingCount | some .sanityFailCount | some .param0 | some .param1 => .error .readOnly
  | none => .error .noRegister

/-- The encoder: the bus write that is the instruction (R82, R91). -/
def encode : Instr → BusWrite
  | .nop => ⟨Reg.addr .cmd, 0x00000000#32⟩
  | .scanRow => ⟨Reg.addr .cmd, 0x00000001#32⟩
  | .find => ⟨Reg.addr .cmd, 0x00000002#32⟩
  | .decode => ⟨Reg.addr .cmd, 0x00000003#32⟩
  | .extract => ⟨Reg.addr .cmd, 0x00000004#32⟩
  | .clearCounts => ⟨Reg.addr .cmd, 0x00000005#32⟩
  | .resPop v => ⟨Reg.addr .resPop, v⟩
  | .statusW1c v => ⟨Reg.addr .status, v⟩

/-- The two kinds of rows of the opcode table (R91). -/
inductive RowFormat where
  /-- Matched on the word written to CMD. -/
  | cmd
  /-- Matched on the address of a bus write. -/
  | bus
deriving DecidableEq, Repr

/-- One row of spec/opcode_table.json: its mnemonic, format, match and mask. -/
structure TableRow where
  mnemonic : String
  format : RowFormat
  pattern : Word
  mask : Word
deriving DecidableEq, Repr

/-- The rows of spec/opcode_table.json, in its order. -/
def opcodeTable : List TableRow :=
  [⟨"NOP", .cmd, 0x00000000#32, 0xFFFFFFFF#32⟩,
   ⟨"SCAN_ROW", .cmd, 0x00000001#32, 0xFFFFFFFF#32⟩,
   ⟨"FIND", .cmd, 0x00000002#32, 0xFFFFFFFF#32⟩,
   ⟨"DECODE", .cmd, 0x00000003#32, 0xFFFFFFFF#32⟩,
   ⟨"EXTRACT", .cmd, 0x00000004#32, 0xFFFFFFFF#32⟩,
   ⟨"CLEAR_COUNTS", .cmd, 0x00000005#32, 0xFFFFFFFF#32⟩,
   ⟨"RES_POP", .bus, 0x000C#32, 0xFFFC#32⟩,
   ⟨"STATUS_W1C", .bus, 0x0004#32, 0xFFFC#32⟩]

/-- The mnemonic of the table row an instruction is. -/
def Instr.mnemonic : Instr → String
  | .nop => "NOP"
  | .scanRow => "SCAN_ROW"
  | .find => "FIND"
  | .decode => "DECODE"
  | .extract => "EXTRACT"
  | .clearCounts => "CLEAR_COUNTS"
  | .resPop _ => "RES_POP"
  | .statusW1c _ => "STATUS_W1C"

/-- R91: a CMD row matches a write to CMD by the masked data, a BUS row matches a write by its masked address. -/
def TableRow.accepts (r : TableRow) (w : BusWrite) : Bool :=
  match r.format with
  | .cmd => wordAddr w.addr == Reg.addr .cmd && w.data &&& r.mask == r.pattern
  | .bus => w.addr.setWidth 32 &&& r.mask == r.pattern

/-- The bus write a table word stands for (DESIGN CHOICE, log 10): a 32-bit word is what is written to CMD, one of 16 or
48 bits is a bus write whose address is the low 16 bits, any address, and whose data are the bits above (zeros where
there are none). The table itself has 32-bit words for CMD and 16-bit ones for RES_POP and STATUS only. -/
def tableWrite (nbits w : Nat) : BusWrite :=
  if nbits = 32 then ⟨Reg.addr .cmd, BitVec.ofNat 32 w⟩
  else ⟨BitVec.ofNat 16 w, BitVec.ofNat 32 (w / 2 ^ 16)⟩

/-- The instruction the decoder reads from a word numbered as spec/opcode_table.json numbers it: 32 bits for a CMD
row, 16 bits for a bus row's address, 48 bits for a bus row's address with its data above it (log 10). The table has no
row of 16 or 48 bits whose address is CMD; such a word is the model's own naming of a CMD write (DESIGN CHOICE, log 10):
the 16-bit words 0x0000 to 0x0003 are NOP, the data being zero, and the 48-bit word 0x000000010000 is SCAN_ROW. It adds no
encoding to the block, where every command is one 32-bit CMD write (R87). -/
def decodeTableWord (nbits w : Nat) : Option Instr :=
  if (nbits = 16 ∨ nbits = 32 ∨ nbits = 48) ∧ w < 2 ^ nbits then
    match decode (tableWrite nbits w) with
    | .ok i => some i
    | .error _ => none
  else none

end Sys2Proof
end

