-- ==== Sys2Proof/Config.lean ====
section
/-! DEFINITION. The build parameters of R7, the constants of R8, and the one free value: what RAW holds after
power-on (R231, U1). -/

namespace Sys2Proof

/-- MANCH_CONV (R7, R120): which valid pair means 1. -/
inductive ManchConv where
  /-- MANCH_CONV = 0: the pair (0,1) means 1; the decoded bit is the pair's second bit. -/
  | secondBit
  /-- MANCH_CONV = 1: the pair (1,0) means 1; the decoded bit is the pair's first bit. -/
  | firstBit
deriving DecidableEq, Repr

/-- The two treatments U1 admits for a RAW word that nothing has written since power-on (P5, D35). -/
inductive RawTreatment where
  /-- Treatment (a): one value per bit is drawn at power-on and stays until written. -/
  | drawn
  /-- Treatment (b): a row-reading command whose window covers such a word faults. -/
  | unwrittenFaults
deriving DecidableEq, Repr

/-- The parameters a build of the block fixes (R7, P1 to P5), each with its default. -/
structure Params where
  /-- ROW_MAX_BITS, the capacity of the RAW window in bits. -/
  rowMaxBits : Nat := 1024
  /-- MARKER, the preamble; bit 15 is compared first (R101). -/
  marker : BitVec 16 := 0x5559#16
  /-- SCAN_STEP, the bits a scan advances past a match. -/
  scanStep : Nat := 2
  /-- MANCH_CONV. -/
  manchConv : ManchConv := .secondBit
  /-- The treatment of RAW words not written since power-on (P5; the default is a DESIGN CHOICE, log 3). -/
  rawTreatment : RawTreatment := .drawn
deriving DecidableEq, Repr

/-- The defaults of R7. -/
def Params.default : Params := {}

namespace Config

/-- MARKER_LEN (R8). -/
abbrev markerLen : Nat := 16

/-- N_DEC (R8): decoded payload bits. -/
abbrev nDec : Nat := 80

/-- MIN_TAIL (R8): the row bits a full packet needs from its marker on, MARKER_LEN + 2 × N_DEC. -/
abbrev minTail : Nat := 176

/-- The free value of U1, treatment (a): the byte a power-on left at a RAW address. It has no body that a proof
could see; the first argument numbers the power-on, the second is the byte's bus address (log 3, log 5). -/
opaque rawPowerOn : Nat → Nat → Byte

end Config

end Sys2Proof
end

