-- ==== Sys2Proof/Machine/State.lean ====
section
/-! DEFINITION. The state of the block, of its host and of their interleaving, as plain data, and the state after
power-on reset (R20, R45, R46, R230). -/

namespace Sys2Proof.Machine

/-- The engine states of R45; each names the engine step that runs next. -/
inductive EngineState where
  | idle | find | decode | extract
deriving DecidableEq, Repr

/-- The engine modes of R45. -/
inductive Mode where
  /-- The engine command is FIND, DECODE or EXTRACT. -/
  | single
  /-- The engine command is SCAN_ROW. -/
  | scan
deriving DecidableEq, Repr

/-- The STATUS.ERR codes of R201; codes 5 to 15 are never produced (V2, log 15). -/
inductive ErrCode where
  | none | illegalCmd | busy | badLen | noPayload
deriving DecidableEq, Repr

/-- The statements of a host program that remain after its pseudo-instructions are expanded (R88 to R90). The two
polling loops keep their own form, since how often they read depends on what they read. -/
inductive HostOp where
  /-- `W a v`: one bus write. -/
  | write (a : BusAddr) (v : Word)
  /-- `R a`: one bus read, its value noted. -/
  | read (a : BusAddr)
  /-- `wait_idle`: read STATUS until BUSY = 0 (R89). -/
  | waitIdle
  /-- `wait_event`: read STATUS until BUSY = 0 or RES_VALID = 1 (R89). -/
  | waitEvent
deriving DecidableEq, Repr

/-- Who moves in a step: one of the two agents of R13, or an input from outside the block (R230, R231). -/
inductive Turn where
  /-- The host takes one bus access. -/
  | host
  /-- The engine takes one step, if it has an enabled one. -/
  | engine
  /-- The rst input, with the power kept on (R230). -/
  | reset
  /-- A power-on (R230, R231). -/
  | powerOn
deriving DecidableEq, Repr

/-- The RAW window: (bus byte address, byte) pairs, addresses strictly rising. A listed byte has been written since
power-on; an unlisted one has not (log 3, log 4). -/
abbrev Memory := List Host.Cell

/-- Addresses strictly rising: the canonical form. An unlisted address reads as `none`, so no entry can equal what an
unlisted address reads as. -/
def Memory.wf : Memory → Bool
  | [] => true
  | [_] => true
  | x :: y :: m => decide (x.1 < y.1) && Memory.wf (y :: m)

/-- Everything the machine is made of. The block's registers are stored without their reserved bits (log 9). -/
structure State where
  /-- The build parameters, what PARAM0 and PARAM1 read (R7, R44). -/
  params : Params
  /-- STATUS.RES_VALID (R24). -/
  resValid : Bool
  /-- STATUS.DONE (R25). -/
  done : Bool
  /-- STATUS.FOUND (R26). -/
  found : Bool
  /-- STATUS.SANITY_OK (R27). -/
  sanityOk : Bool
  /-- STATUS.ERR (R28). -/
  err : ErrCode
  /-- The engine's `state`, read as STATUS.STATE and STATUS.BUSY (R23, R29, R45). -/
  engine : EngineState
  /-- The engine's `mode`, read as STATUS.MODE (R30, R45). -/
  mode : Mode
  /-- SCAN_POS, a natural number (R45). -/
  scanPos : Nat
  /-- IRQ_EN: bit 0 is DONE_IE, bit 1 is RES_IE (R31). -/
  irqEn : BitVec 2
  /-- ROW_LEN.LEN (R33). -/
  rowLen : BitVec 16
  /-- START.OFS (R34). -/
  start : BitVec 16
  /-- ROW_IDX.TAG (R35). -/
  rowIdx : BitVec 8
  /-- MATCH_POS (R36). -/
  matchPos : BitVec 16
  /-- DEC_COUNT (R37). -/
  decCount : BitVec 7
  /-- PAYLOAD0: payload bytes b0 to b3 (R38). -/
  payload0 : Word
  /-- PAYLOAD1: payload bytes b4 to b7 (R38). -/
  payload1 : Word
  /-- PAYLOAD2 bits 31:16: payload bytes b8 and b9 (R38). -/
  payload2 : BitVec 16
  /-- RES_ID (R39). -/
  resId : Word
  /-- RES_FLAGS bits 9:0 (R40). -/
  resFlags : BitVec 10
  /-- RES_DATA (R41). -/
  resData : Word
  /-- RES_POS bits 23:0 (R42). -/
  resPos : BitVec 24
  /-- READING_COUNT (R43). -/
  readingCount : Word
  /-- SANITY_FAIL_COUNT (R43). -/
  sanityFailCount : Word
  /-- The RAW window (R46, R60). -/
  raw : Memory
  /-- How many power-ons came before this one: the model's own, the index of RAW's free content (log 5). -/
  powerOns : Nat
  /-- The host's statements still to run: the model's own (log 1, log 7). -/
  program : List HostOp
  /-- The values the host's reads returned, oldest first: the model's own (log 8). -/
  noted : List Word
  /-- The moves still scheduled: the model's own (log 1). -/
  turns : List Turn
deriving DecidableEq, Repr

/-- The reasons a step stops with a fault. -/
inductive Fault where
  /-- Raised by SCAN_ROW, FIND and DECODE, and only in a build with treatment (b) of U1 (D35): the command's window
  [0, L) covers a RAW word that was not written since power-on. Safe: the model stops where the hardware computes
  over unspecified bits (log 3, log 11). -/
  | unwrittenRow
deriving DecidableEq, Repr

/-- The reasons a step has no meaning. -/
inductive Refusal where
  /-- Raised by a `Dispatch` arm whose instruction has no meaning yet; safe. No arm raises it. -/
  | notModelled (mnemonic : String)
deriving DecidableEq, Repr

/-- The state after power-on reset: every register 0, the engine IDLE, SINGLE, SCAN_POS 0 (R50, R230), nothing of RAW
written (R231), default parameters (R7), and a host with no program (log 7). -/
def State.reset : State where
  params := Params.default
  resValid := false
  done := false
  found := false
  sanityOk := false
  err := .none
  engine := .idle
  mode := .single
  scanPos := 0
  irqEn := 0#2
  rowLen := 0#16
  start := 0#16
  rowIdx := 0#8
  matchPos := 0#16
  decCount := 0#7
  payload0 := 0#32
  payload1 := 0#32
  payload2 := 0#16
  resId := 0#32
  resFlags := 0#10
  resData := 0#32
  resPos := 0#24
  readingCount := 0#32
  sanityFailCount := 0#32
  raw := []
  powerOns := 0
  program := []
  noted := []
  turns := []

end Sys2Proof.Machine
end

