-- ==== Sys2Proof/Machine/Flags.lean ====
section
/-! DEFINITION. STATUS as the host reads it, the codes of its fields, BUSY, and the interrupt output
(R22, R23, R29, R30, R201, R205). -/

namespace Sys2Proof.Machine

/-- The STATUS.STATE code of an engine state (R29). -/
def EngineState.code : EngineState → BitVec 3
  | .idle => 0#3
  | .find => 1#3
  | .decode => 2#3
  | .extract => 3#3

/-- The STATUS.MODE code of a mode (R30). -/
def Mode.code : Mode → BitVec 1
  | .single => 0#1
  | .scan => 1#1

/-- The STATUS.ERR code of a rejection (R201). -/
def ErrCode.code : ErrCode → BitVec 4
  | .none => 0#4
  | .illegalCmd => 1#4
  | .busy => 2#4
  | .badLen => 3#4
  | .noPayload => 4#4

/-- STATUS.BUSY: 1 exactly when the engine state is not IDLE (R23). -/
def State.busy (s : State) : Bool := decide (s.engine ≠ .idle)

/-- STATUS as read (R22): bit 0 BUSY, 1 RES_VALID, 2 DONE, 3 FOUND, 4 SANITY_OK, 7:5 zero, 11:8 ERR, 14:12 STATE,
15 MODE, 31:16 zero. -/
def State.statusWord (s : State) : Word :=
  0#16 ++ s.mode.code ++ s.engine.code ++ s.err.code ++ 0#3 ++ BitVec.ofBool s.sanityOk
    ++ BitVec.ofBool s.found ++ BitVec.ofBool s.done ++ BitVec.ofBool s.resValid
    ++ BitVec.ofBool s.busy

/-- IRQ_EN.DONE_IE (R31). -/
def State.doneIe (s : State) : Bool := s.irqEn.getLsbD 0

/-- IRQ_EN.RES_IE (R31). -/
def State.resIe (s : State) : Bool := s.irqEn.getLsbD 1

/-- The level of the interrupt output in a state (R205). -/
def State.irq (s : State) : Bool := (s.done && s.doneIe) || (s.resValid && s.resIe)

/-- The engine has an enabled step: it is not IDLE and not held in EXTRACT by a full result slot (R71). -/
def State.engineEnabled (s : State) : Bool :=
  s.busy && !(decide (s.engine = .extract) && s.resValid)

end Sys2Proof.Machine
end

