-- ==== Sys2Proof/Machine/Ops.lean ====
section
/-! DEFINITION. The named operations over RAW and over the command state: reading and writing row bytes and words,
rejecting an access (R200: the block's only error mechanism, R207), accepting a command (R83), finishing an engine
command (R25), and reset (R230, R231). -/

namespace Sys2Proof.Machine

/-- The outcomes of a step of this machine. -/
abbrev Result := Host.Outcome State Fault Refusal

/-! ## RAW -/

/-- The byte a power-on or a host write left listed at an address; `none` where nothing has been written. -/
def Memory.read : Memory → Nat → Option Byte
  | [], _ => none
  | (x, b) :: m, a => if x = a then some b else Memory.read m a

/-- Write one byte, keeping addresses strictly rising. -/
def Memory.write : Memory → Nat → Byte → Memory
  | [], a, v => [(a, v)]
  | (x, b) :: m, a, v =>
    if a < x then (a, v) :: (x, b) :: m
    else if a = x then (a, v) :: m
    else (x, b) :: Memory.write m a v

/-- Write one word at a byte address, most significant byte first (R61, R65). -/
def Memory.writeWord (m : Memory) (a : Nat) (v : Word) : Memory :=
  (((m.write a (v.extractLsb' 24 8)).write (a + 1) (v.extractLsb' 16 8)).write (a + 2)
    (v.extractLsb' 8 8)).write (a + 3) (v.extractLsb' 0 8)

/-- The bus address of RAW[0] (R60). -/
abbrev rawBase : Nat := 0x1000

/-- The bus address of RAW[w] (R60). -/
def rawAddr (w : Nat) : Nat := rawBase + 4 * w

/-- A byte of RAW: what was written last since power-on, else the free value of the power-on (U1, log 3). -/
def State.rawByte (s : State) (a : Nat) : Byte :=
  (s.raw.read a).getD (Config.rawPowerOn s.powerOns a)

/-- RAW[w], big-endian (R61, R65). -/
def State.rawWord (s : State) (w : Nat) : Word :=
  s.rawByte (rawAddr w) ++ s.rawByte (rawAddr w + 1) ++ s.rawByte (rawAddr w + 2)
    ++ s.rawByte (rawAddr w + 3)

/-- RAW[w] <- v, all 32 bits (R185). -/
def State.writeRaw (w : Nat) (v : Word) (s : State) : State :=
  { s with raw := s.raw.writeWord (rawAddr w) v }

/-- Every byte of RAW[w] has been written since power-on. -/
def State.wordWritten (s : State) (w : Nat) : Bool :=
  (s.raw.read (rawAddr w)).isSome && (s.raw.read (rawAddr w + 1)).isSome
    && (s.raw.read (rawAddr w + 2)).isSome && (s.raw.read (rawAddr w + 3)).isSome

/-! ## Rejection, acceptance, completion -/

/-- `reject(code)`: STATUS.ERR <- code and nothing else (R200). -/
def State.reject (code : ErrCode) (s : State) : State := { s with err := code }

/-- The first step of `accept`: STATUS.ERR <- 0 and STATUS.DONE <- 0 (R83). -/
def State.accept (s : State) : State := { s with err := .none, done := false }

/-- The end of an immediate command: STATUS.DONE <- 1, the engine stays as it is (R83). -/
def State.setDone (s : State) : State := { s with done := true }

/-- Acceptance of an engine command: `accept`, then `mode` and `state` (R83). -/
def State.startEngine (m : Mode) (e : EngineState) (s : State) : State :=
  { s.accept with mode := m, engine := e }

/-- The final step of an engine command: `state <- IDLE`, STATUS.DONE <- 1 (R25). -/
def State.finish (s : State) : State := { s with engine := .idle, done := true }

/-! ## Reset -/

/-- The rst input with the power kept on: every register and the engine to its reset value (R230); RAW and the
parameters stay (R50, R231). The host's own data are not the block's and stay (log 6). -/
def State.resetBlock (s : State) : State :=
  { State.reset with
    params := s.params
    raw := s.raw
    powerOns := s.powerOns
    program := s.program
    noted := s.noted
    turns := s.turns }

/-- A power-on: reset, and RAW's content is unspecified anew (R231, log 5). -/
def State.powerOn (s : State) : State :=
  { s.resetBlock with raw := [], powerOns := s.powerOns + 1 }

end Sys2Proof.Machine
end

