-- ==== Sys2Proof/Machine/Operands.lean ====
section
/-! DEFINITION. The operands of commands and bus writes: the row and its length, the start offset, the row tag
(R62, R84, R85), and the fields of written data (R183 to R185). -/

namespace Sys2Proof.Machine

/-- `L`, the row length, as a natural number (R33, R85). -/
def State.len (s : State) : Nat := s.rowLen.toNat

/-- START.OFS as a natural number (R34, R85). -/
def State.startOfs (s : State) : Nat := s.start.toNat

/-- MATCH_POS as a natural number, `m` of R164 and R165. -/
def State.matchOfs (s : State) : Nat := s.matchPos.toNat

/-- `RowBit(k) = RAW[k >> 5][31 - (k & 31)]` (R61, R62). -/
def State.rowBit (s : State) (k : Nat) : Bool := (s.rawWord (k / 32)).getLsbD (31 - k % 32)

/-- Every RAW word of the window [0, L) has been written since power-on (R234). -/
def State.rowWritten (s : State) : Bool :=
  (List.range ((s.len + 31) / 32)).all fun w => s.wordWritten w

/-- The row may be read: always under treatment (a) of U1, and under treatment (b) only if all of it was written
(D35, log 3). -/
def State.rowReadable (s : State) : Bool :=
  decide (s.params.rawTreatment = .drawn) || s.rowWritten

/-- The offset a SCAN_ROW searches from after the match at MATCH_POS (R166). -/
def State.resumeOfs (s : State) : Nat := s.matchOfs + s.params.scanStep

/-- The low 16 bits of written data: ROW_LEN and START (R185). -/
def low16 (v : Word) : BitVec 16 := v.extractLsb' 0 16

/-- The low 8 bits of written data: ROW_IDX (R185). -/
def low8 (v : Word) : BitVec 8 := v.extractLsb' 0 8

/-- The low 2 bits of written data: IRQ_EN (R184). -/
def low2 (v : Word) : BitVec 2 := v.extractLsb' 0 2

/-- Bit 2 of data written to STATUS: 1 clears DONE (R183). -/
def clearsDone (v : Word) : Bool := v.getLsbD 2

end Sys2Proof.Machine
end

