-- ==== Sys2Proof/Machine/Command.lean ====
section
/-! DEFINITION. The checks a command word meets before it is accepted, in the order of R80 (R200 to R204). -/

namespace Sys2Proof.Machine

/-- The first check of R80: a command while BUSY = 1 is rejected with code 2. -/
def whenIdle (s : State) (accepted : Result) : Result :=
  if s.busy then .next (s.reject .busy) else accepted

/-- The third check of R80, for the commands that read the row: rejected with code 3 if ROW_LEN.LEN > ROW_MAX_BITS
(R202). In a build with treatment (b) of U1, an accepted one then faults if it would read an unwritten word (log 11). -/
def whenRowOk (s : State) (accepted : Result) : Result :=
  if s.len > s.params.rowMaxBits then .next (s.reject .badLen)
  else if s.rowReadable then accepted
  else .fault .unwrittenRow

/-- The fourth check of R80, for EXTRACT: rejected with code 4 if SANITY_OK = 0 (R203). -/
def whenPayloadOk (s : State) (accepted : Result) : Result :=
  if s.sanityOk then accepted else .next (s.reject .noPayload)

/-- A CMD word that is no command: BUSY is checked before ILLEGAL_CMD (R80, R86, R204). -/
def illegalCommand (s : State) : Result :=
  whenIdle s (.next (s.reject .illegalCmd))

end Sys2Proof.Machine
end

