-- ==== Sys2Proof/Machine/Control.lean ====
section
/-! DEFINITION. The control operations: NOP, CLEAR_COUNTS, the RES_POP and STATUS writes, and the loading of operand
registers (R180 to R185), with the busy guard (R53). -/

namespace Sys2Proof.Machine

/-- NOP (R180). -/
def execNop (s : State) : Result := whenIdle s (.next s.accept.setDone)

/-- Both counters to 0 (R181). -/
def State.clearCounts (s : State) : State :=
  { s with readingCount := 0#32, sanityFailCount := 0#32 }

/-- CLEAR_COUNTS (R181). -/
def execClearCounts (s : State) : Result := whenIdle s (.next s.accept.clearCounts.setDone)

/-- STATUS.RES_VALID <- 0 and nothing else (R182). -/
def State.pop (s : State) : State := { s with resValid := false }

/-- A write of any value to RES_POP, allowed at any time (R182). -/
def execResPop (_data : Word) (s : State) : Result := .next s.pop

/-- A write to STATUS, allowed at any time: bit 2 = 1 clears DONE, every other bit is ignored (R183). -/
def execStatusW1c (data : Word) (s : State) : Result :=
  .next { s with done := s.done && !clearsDone data }

/-- The busy guard: while BUSY = 1 the write is ignored and ERR <- 2 (R53). -/
def State.guarded (s : State) (stored : State) : State :=
  if s.busy then s.reject .busy else stored

/-- A write to a register that stores (R184, R185). IRQ_EN is not guarded. -/
def State.load (r : LoadReg) (v : Word) (s : State) : State :=
  match r with
  | .irqEn => { s with irqEn := low2 v }
  | .rowLen => s.guarded { s with rowLen := low16 v }
  | .start => s.guarded { s with start := low16 v }
  | .rowIdx => s.guarded { s with rowIdx := low8 v }

end Sys2Proof.Machine
end

