-- ==== Sys2Proof/Machine/Extractor.lean ====
section
/-! DEFINITION. The bit-field extractor: the layout (R140, R145 to R147), `emit` (R144), the EXTRACT command (R149)
and its engine step in SINGLE mode. -/

namespace Sys2Proof.Machine

/-- The 80 payload bits as PAYLOAD0..2 hold them, d[0] most significant (R38). -/
def State.payload (s : State) : BitVec 80 := s.payload0 ++ s.payload1 ++ s.payload2

/-- The payload byte `b_q`, q from 0 to 9, read back from PAYLOAD0..2 (R38). -/
def State.payloadByte (s : State) (q : Nat) : Byte := s.payload.extractLsb' (72 - 8 * q) 8

/-- RES_FLAGS.INTEGRITY = 0, Unverified: the only code ever written (R146). -/
def integrityUnverified : BitVec 2 := 0#2

/-- `emit` (R144): the reading of the present payload goes into the result slot and is counted, modulo 2^32. -/
def State.emit (s : State) : State :=
  { s with
    resId := s.payloadByte 0 ++ s.payloadByte 1 ++ s.payloadByte 2 ++ s.payloadByte 3
    resFlags := integrityUnverified ++ s.payloadByte 4
    resData := s.payloadByte 8 ++ s.payloadByte 7 ++ s.payloadByte 6 ++ s.payloadByte 5
    resPos := s.rowIdx ++ s.matchPos
    resValid := true
    readingCount := s.readingCount + 1#32 }

/-- The EXTRACT step in SINGLE mode, once it is enabled (R144). -/
def extractSingle (s : State) : State := s.emit.finish

/-- EXTRACT (R149): checked by R80, then accepted with mode SINGLE and state EXTRACT (R83). -/
def execExtract (s : State) : Result :=
  whenIdle s (whenPayloadOk s (.next (s.startEngine .single .extract)))

end Sys2Proof.Machine
end

