-- ==== Sys2Proof/Machine/Manchester.lean ====
section
/-! DEFINITION. The Manchester decoder: pairs and bits (R120), the decode function (R122), payload bytes (R123), the
DECODE command (R125) and its engine step (R124). -/

namespace Sys2Proof.Machine

/-- `DecodeBit(a, b)` of a valid pair (R120). -/
def decodeBit (conv : ManchConv) (a b : Bool) : Bool :=
  match conv with
  | .secondBit => b
  | .firstBit => a

/-- The loop of R122 from pair offset `p`, for at most `n` more pairs: the payload bits it produces, in order. It
stops where the row ends and at the first invalid pair. -/
def manchFrom (conv : ManchConv) (row : Nat → Bool) (len : Nat) : Nat → Nat → List Bool
  | 0, _ => []
  | n + 1, p =>
    if p + 2 > len then []
    else if row p = row (p + 1) then []
    else decodeBit conv (row p) (row (p + 1)) :: manchFrom conv row len n (p + 2)

/-- `Manch(L, s)` of R122: the decoded bits, first bit first; the count `c` is their number. -/
def manch (conv : ManchConv) (row : Nat → Bool) (len s : Nat) : List Bool :=
  manchFrom conv row len Config.nDec s

/-- The decode of the row the block holds. -/
def State.manchAt (s : State) (ofs : Nat) : List Bool :=
  manch s.params.manchConv s.rowBit s.len ofs

/-- `n` bits packed with the first one most significant (R123). -/
def msbFirst : (n : Nat) → (Nat → Bool) → BitVec n
  | 0, _ => 0#0
  | n + 1, f => BitVec.cons (f 0) (msbFirst n fun i => f (i + 1))

/-- The payload bit `d[j]`: 0 where the decode did not produce it (R122, R123). -/
def payloadBit (bits : List Bool) (j : Nat) : Bool := bits.getD j false

/-- The payload byte `b_q = (d[8q], ..., d[8q+7])`, `d[8q]` as bit 7 (R123). -/
def payloadByteOf (bits : List Bool) (q : Nat) : Byte :=
  msbFirst 8 fun j => payloadBit bits (8 * q + j)

/-- What every DECODE step writes: DEC_COUNT, PAYLOAD0..2 (laid out by R38), SANITY_OK, and SANITY_FAIL_COUNT + 1
modulo 2^32 if fewer than 80 bits were produced (R124, R164). -/
def State.writeDecode (bits : List Bool) (s : State) : State :=
  { s with
    decCount := BitVec.ofNat 7 bits.length
    payload0 := payloadByteOf bits 0 ++ payloadByteOf bits 1 ++ payloadByteOf bits 2
      ++ payloadByteOf bits 3
    payload1 := payloadByteOf bits 4 ++ payloadByteOf bits 5 ++ payloadByteOf bits 6
      ++ payloadByteOf bits 7
    payload2 := payloadByteOf bits 8 ++ payloadByteOf bits 9
    sanityOk := decide (bits.length = Config.nDec)
    sanityFailCount :=
      if bits.length = Config.nDec then s.sanityFailCount else s.sanityFailCount + 1#32 }

/-- The DECODE step in SINGLE mode: pair 0 is at START (R124, R130). -/
def decodeSingle (s : State) : State :=
  (s.writeDecode (s.manchAt s.startOfs)).finish

/-- DECODE (R125): checked by R80, then accepted with mode SINGLE and state DECODE (R83). -/
def execDecode (s : State) : Result :=
  whenIdle s (whenRowOk s (.next (s.startEngine .single .decode)))

end Sys2Proof.Machine
end

