-- ==== Sys2Proof/Machine/Scanner.lean ====
section
/-! DEFINITION. The preamble pattern scanner: the search (R100 to R108), the FIND command (R103) and its engine step
(R104). -/

namespace Sys2Proof.Machine

/-- `MB[i] = MARKER[15 - i]` (R101). -/
def markerBit (marker : BitVec 16) (i : Nat) : Bool := marker.getLsbD (15 - i)

/-- The marker occurs exactly at offset `m`: `RowBit(m + i) = MB[i]` for every i in 0..15 (R102, R105). -/
def matchesAt (row : Nat → Bool) (marker : BitVec 16) (m : Nat) : Bool :=
  (List.range Config.markerLen).all fun i => row (m + i) == markerBit marker i

/-- The loop of R102 from offset `m`, over `n` more candidates. -/
def searchFrom (row : Nat → Bool) (marker : BitVec 16) (len : Nat) : Nat → Nat → Nat
  | 0, _ => len
  | n + 1, m =>
    if m + Config.markerLen ≤ len then
      if matchesAt row marker m then m else searchFrom row marker len n (m + 1)
    else len

/-- `Search(L, s)` of R102. The candidates number max(0, L - 15 - s) (R110). -/
def search (row : Nat → Bool) (marker : BitVec 16) (len s : Nat) : Nat :=
  searchFrom row marker len (len - 15 - s) s

/-- The search in the row the block holds. -/
def State.searchFor (s : State) (ofs : Nat) : Nat :=
  search s.rowBit s.params.marker s.len ofs

/-- What every FIND step writes: MATCH_POS <- m, FOUND <- (m < L) (R104, R163). -/
def State.writeMatch (m : Nat) (s : State) : State :=
  { s with matchPos := BitVec.ofNat 16 m, found := decide (m < s.len) }

/-- The FIND step in SINGLE mode (R104). -/
def findSingle (s : State) : State :=
  (s.writeMatch (s.searchFor s.startOfs)).finish

/-- FIND (R103): checked by R80, then accepted with mode SINGLE and state FIND (R83). -/
def execFind (s : State) : Result :=
  whenIdle s (whenRowOk s (.next (s.startEngine .single .find)))

end Sys2Proof.Machine
end

