-- ==== Sys2Proof/Machine/Pipeline.lean ====
section
/-! DEFINITION. The per-row scan pipeline: the SCAN_ROW command (R160), its engine steps (R163 to R165), and the one
step the engine takes in each of its states (R45, R71, R162). -/

namespace Sys2Proof.Machine

/-- The FIND step in SCAN mode: the row goes on only if a full packet fits behind the match (R163, R167). -/
def findScan (s : State) : State :=
  let m := s.searchFor s.scanPos
  if m + Config.minTail ≤ s.len then { s.writeMatch m with engine := .decode }
  else (s.writeMatch m).finish

/-- The scan goes on with a search from MATCH_POS + SCAN_STEP (R166). -/
def State.resumeScan (s : State) : State := { s with scanPos := s.resumeOfs, engine := .find }

/-- The DECODE step in SCAN mode: pair 0 is 16 bits after the marker's start (R164). -/
def decodeScan (s : State) : State :=
  let bits := s.manchAt (s.matchOfs + Config.markerLen)
  if bits.length = Config.nDec then { s.writeDecode bits with engine := .extract }
  else (s.writeDecode bits).resumeScan

/-- The EXTRACT step in SCAN mode, once it is enabled (R165). -/
def extractScan (s : State) : State := s.emit.resumeScan

/-- The engine's step when it has an enabled one; without one (IDLE, or held in EXTRACT) nothing changes
(R71, R144, R214, log 16). -/
def engineStep (s : State) : State :=
  if s.engineEnabled then
    match s.engine, s.mode with
    | .idle, _ => s
    | .find, .single => findSingle s
    | .find, .scan => findScan s
    | .decode, .single => decodeSingle s
    | .decode, .scan => decodeScan s
    | .extract, .single => extractSingle s
    | .extract, .scan => extractScan s
  else s

/-- SCAN_ROW (R160): checked by R80, then accepted with mode SCAN, SCAN_POS 0 and state FIND (R83). -/
def execScanRow (s : State) : Result :=
  whenIdle s (whenRowOk s (.next { s.startEngine .scan .find with scanPos := 0 }))

end Sys2Proof.Machine
end

