-- ==== Sys2Proof/Machine/Dispatch.lean ====
section
/-! DEFINITION. One arm per instruction: the host step that writes it (R80 to R83, R182, R183). -/

namespace Sys2Proof.Machine

def exec (i : Instr) (s : State) : Host.Outcome State Fault Refusal :=
  match i with
  | .nop => Sys2Proof.Machine.execNop s
  | .scanRow => Sys2Proof.Machine.execScanRow s
  | .find => Sys2Proof.Machine.execFind s
  | .decode => Sys2Proof.Machine.execDecode s
  | .extract => Sys2Proof.Machine.execExtract s
  | .clearCounts => Sys2Proof.Machine.execClearCounts s
  | .resPop data => Sys2Proof.Machine.execResPop data s
  | .statusW1c data => Sys2Proof.Machine.execStatusW1c data s

end Sys2Proof.Machine
end

