-- ==== Sys2Proof/Machine/Bus.lean ====
section
/-! DEFINITION. The host's bus accesses: the address map (R60, R66, R68, R78), reads (R67) and writes (R51, R53,
R185), which hand every instruction to `exec`. -/

namespace Sys2Proof.Machine

/-- The RAW word at a bus address, if the address is in the RAW window (R60, R78). -/
def rawWordAt (p : Params) (a : BusAddr) : Option Nat :=
  let w := (wordAddr a).toNat
  if rawBase ≤ w ∧ w < rawBase + p.rowMaxBits / 8 then some ((w - rawBase) / 4) else none

/-- MANCH_CONV as PARAM0 reads it (R7, R44). -/
def manchConvBit : ManchConv → BitVec 1
  | .secondBit => 0#1
  | .firstBit => 1#1

/-- PARAM0: 15:0 ROW_MAX_BITS, 16 MANCH_CONV (R44). -/
def Params.param0 (p : Params) : Word :=
  0#15 ++ manchConvBit p.manchConv ++ BitVec.ofNat 16 p.rowMaxBits

/-- PARAM1: 15:0 MARKER, 23:16 SCAN_STEP (R44). -/
def Params.param1 (p : Params) : Word := 0#8 ++ BitVec.ofNat 8 p.scanStep ++ p.marker

/-- The value a register reads (R21 to R44); reserved fields read 0. -/
def State.readReg (s : State) : Reg → Word
  | .cmd => 0#32
  | .status => s.statusWord
  | .irqEn => s.irqEn.setWidth 32
  | .resPop => 0#32
  | .rowLen => s.rowLen.setWidth 32
  | .start => s.start.setWidth 32
  | .rowIdx => s.rowIdx.setWidth 32
  | .matchPos => s.matchPos.setWidth 32
  | .decCount => s.decCount.setWidth 32
  | .payload0 => s.payload0
  | .payload1 => s.payload1
  | .payload2 => s.payload2 ++ 0#16
  | .resId => s.resId
  | .resFlags => s.resFlags.setWidth 32
  | .resData => s.resData
  | .resPos => s.resPos.setWidth 32
  | .readingCount => s.readingCount
  | .sanityFailCount => s.sanityFailCount
  | .param0 => Params.param0 s.params
  | .param1 => Params.param1 s.params

/-- `BusRead(a)` (R67): a register, a RAW word, or 0 where nothing is mapped (R68). A RAW word that nothing has
written reads its free power-on value (log 12). -/
def busRead (s : State) (a : BusAddr) : Word :=
  match regAt a with
  | some r => s.readReg r
  | none =>
    match rawWordAt s.params a with
    | some w => s.rawWord w
    | none => 0#32

/-- A write to the RAW window under the busy guard (R53, R185), or to an unmapped address, which is ignored (R68). -/
def State.writeWindow (a : BusAddr) (v : Word) (s : State) : State :=
  match rawWordAt s.params a with
  | some w => s.guarded (s.writeRaw w v)
  | none => s

/-- `BusWrite(a, v)` (R66): an instruction is executed; an illegal CMD word is rejected (R86); any other write stores
its value or is ignored (R51, R68, R77). -/
def busWrite (a : BusAddr) (v : Word) (s : State) : Result :=
  match Sys2Proof.decode ⟨a, v⟩ with
  | .ok i => exec i s
  | .error .illegalCmd => illegalCommand s
  | .error (.load r) => .next (s.load r v)
  | .error .readOnly => .next s
  | .error .noRegister => .next (s.writeWindow a v)

end Sys2Proof.Machine
end

