-- ==== Sys2Proof/Machine/Agents.lean ====
section
/-! DEFINITION. The two agents' steps and the interleaving (R13, R70, R71): the host's next statement, the engine's
next step, the inputs from outside, and whose turn it is. -/

namespace Sys2Proof.Machine

/-- A read whose value the host notes (R67, R88): no state of the block changes. -/
def State.note (v : Word) (s : State) : State := { s with noted := s.noted ++ [v] }

/-- One round of a polling loop: read STATUS and note it; the loop ends if the word read says so, else it stays the
next statement (R89, log 13). -/
def pollStatus (ends : Word → Bool) (rest : List HostOp) (s : State) : State :=
  let v := busRead s (Reg.addr .status)
  { s.note v with program := if ends v then rest else s.program }

/-- `wait_idle` ends when BUSY = 0 (R89). -/
def endsWaitIdle (v : Word) : Bool := !v.getLsbD 0

/-- `wait_event` ends when BUSY = 0 or RES_VALID = 1 (R89). -/
def endsWaitEvent (v : Word) : Bool := !v.getLsbD 0 || v.getLsbD 1

/-- One host step: its next statement's bus access (R13, R70). A host with no statement left does nothing (log 16). -/
def hostStep (s : State) : Result :=
  match s.program with
  | [] => .next s
  | .write a v :: rest => busWrite a v { s with program := rest }
  | .read a :: rest => .next ({ s with program := rest }.note (busRead s a))
  | .waitIdle :: rest => .next (pollStatus endsWaitIdle rest s)
  | .waitEvent :: rest => .next (pollStatus endsWaitEvent rest s)

/-- Whose turn it is: the schedule says so; when it is used up, an enabled engine moves, else the host (R70, R71,
log 1, log 17). -/
def State.nextTurn (s : State) : Turn :=
  match s.turns with
  | t :: _ => t
  | [] => if s.engineEnabled then .engine else .host

/-- The state with its turn taken off the schedule. -/
def State.dropTurn (s : State) : State := { s with turns := s.turns.tail }

/-- The step of whoever's turn it is. -/
def takeTurn : Turn → State → Result
  | .host, s => hostStep s
  | .engine, s => .next (engineStep s)
  | .reset, s => .next s.resetBlock
  | .powerOn, s => .next s.powerOn

end Sys2Proof.Machine
end

