-- ==== Sys2Proof/Machine/Step.lean ====
section
/-! DEFINITION. One step of the machine, and how the host's next bus write is placed before it. -/

namespace Sys2Proof.Machine

/-- One atomic step of one agent (R70): the next turn of the interleaving is taken. -/
def step (s : State) : Host.Outcome State Fault Refusal :=
  takeTurn s.nextTurn s.dropTurn

/-- The state whose very next step is the host's write of a table word (log 7, log 10). -/
def State.withFetchWord (s : State) (nbits w : Nat) : State :=
  let bw := tableWrite nbits w
  { s with program := .write bw.addr bw.data :: s.program, turns := .host :: s.turns }

end Sys2Proof.Machine
end

