-- ==== Sys2Proof/Machine/HostProgram.lean ====
section
/-! DEFINITION. The host's assembly syntax: the pseudo-instructions of R89 and their expansion into bus accesses (R88,
R90). -/

namespace Sys2Proof.Machine

/-- `wr REG, v` (R88). -/
def wr (r : Reg) (v : Word) : HostOp := .write r.addr v

/-- `rd REG` (R88). -/
def rd (r : Reg) : HostOp := .read r.addr

/-- `wr RAW[w], v` (R88). -/
def wrRaw (w : Nat) (v : Word) : HostOp := .write (BitVec.ofNat 16 (rawAddr w)) v

/-- `cmd OP` for a command of R82, and the two bus rows as the write they are (R89, R91). -/
def cmd (i : Instr) : HostOp := .write (encode i).addr (encode i).data

/-- `load_row v0, v1, ..., vn`: RAW[0] to RAW[n] in order (R89). -/
def loadRow (vs : List Word) : List HostOp :=
  (List.zipIdx vs).map fun p => wrRaw p.2 p.1

/-- `pop` (R89). -/
def popResult : HostOp := wr .resPop 0x00000000#32

/-- `clr_done` (R89). -/
def clrDone : HostOp := wr .status 0x00000004#32

/-- `read_result` (R89). -/
def readResult : List HostOp := [rd .resId, rd .resFlags, rd .resData, rd .resPos]

end Sys2Proof.Machine
end

