-- ==== Sys2Proof/WellFormed.lean ====
section
/-! DEFINITION. What is well formed: every instruction (its operands fit by their types), and a set of build
parameters with the legal values of R7. -/

namespace Sys2Proof

/-- Every term of `Instr` is an instruction the encoding admits: no command has an operand (R81), and the data of a
RES_POP or STATUS write may be any 32-bit value (R182, R183). -/
def Instr.wf : Instr → Bool
  | .nop | .scanRow | .find | .decode | .extract | .clearCounts => true
  | .resPop _ => true
  | .statusW1c _ => true

/-- ROW_MAX_BITS is a multiple of 32 from 32 to 32768 (R7). -/
def Params.rowMaxBitsOk (p : Params) : Bool :=
  decide (p.rowMaxBits % 32 = 0 ∧ 32 ≤ p.rowMaxBits ∧ p.rowMaxBits ≤ 32768)

/-- SCAN_STEP is 1 to 16 (R7). -/
def Params.scanStepOk (p : Params) : Bool :=
  decide (1 ≤ p.scanStep ∧ p.scanStep ≤ 16)

/-- The legal build parameters of R7 (MARKER and MANCH_CONV are legal at every value). -/
def Params.wf (p : Params) : Bool :=
  p.rowMaxBitsOk && p.scanStepOk

end Sys2Proof
end

