-- ==== Sys2Proof/Safety.lean ====
section
/-! DEFINITION. What holds of a block in every state that a run from a legal build reaches. -/

namespace Sys2Proof.Machine

/-- Every listed byte of RAW lies in the window (R60, R78). -/
def State.rawInWindow (s : State) : Prop :=
  ∀ c ∈ s.raw, rawBase ≤ c.1 ∧ c.1 < rawBase + s.params.rowMaxBits / 8

/-- The state invariant of the block. -/
structure State.Inv (s : State) : Prop where
  /-- The build parameters are legal (R7). -/
  params_wf : s.params.wf = true
  /-- RAW keeps its canonical form. -/
  raw_wf : s.raw.wf = true
  /-- RAW lists nothing outside the window (R60). -/
  raw_inWindow : s.rawInWindow
  /-- SCAN_POS is below 2^17 (R45). -/
  scanPos_lt : s.scanPos < 2 ^ 17
  /-- DEC_COUNT is 0 to 80 (R37). -/
  decCount_le : s.decCount.toNat ≤ Config.nDec
  /-- SANITY_OK is 1 exactly when the last decode produced 80 bits (R27). -/
  sanity_iff : s.sanityOk = true ↔ s.decCount.toNat = Config.nDec
  /-- RES_FLAGS.INTEGRITY reads Unverified (R146, V4). -/
  integrity : s.resFlags.extractLsb' 8 2 = 0#2
  /-- DONE is 0 while a command runs (R25, R83). -/
  done_of_busy : s.busy = true → s.done = false
  /-- A running command that reads the row has a row that fits the storage (R202). -/
  len_of_reading : s.busy = true → (s.engine ≠ .extract ∨ s.mode = .scan) →
    s.len ≤ s.params.rowMaxBits
  /-- The engine is in EXTRACT only with a payload of 80 bits (R162, R203). -/
  payload_of_extract : s.engine = .extract → s.sanityOk = true
  /-- A SCAN_ROW past its search has a marker with room for a packet (R163, R168). -/
  room_of_scan : s.mode = .scan → (s.engine = .decode ∨ s.engine = .extract) →
    s.found = true ∧ s.matchOfs + Config.minTail ≤ s.len

end Sys2Proof.Machine
end

