-- ==== Sys2Proof/Certificates/Slice0/Obligations.lean ====
section
/-! DEFINITION. The statements about the block, most of them one rule of spec/ each. A statement about an engine step
speaks of any state whose next turn is the engine's, and gives the whole next state; where it writes
`{ s.dropTurn with ... }`, every field not named stays as it was, RAW and so every byte of it among them. -/

open Sys2Proof Sys2Proof.Machine

/-! ## Encoding -/

/-- The words of 30_encoding.md and of opcode_table.json, written out. -/
def Obligations.TableWordsDecodeToTheirRows : Prop :=
  decodeTableWord 32 0x00000000 = some .nop ∧
  decodeTableWord 32 0x00000001 = some .scanRow ∧
  decodeTableWord 32 0x00000002 = some .find ∧
  decodeTableWord 32 0x00000003 = some .decode ∧
  decodeTableWord 32 0x00000004 = some .extract ∧
  decodeTableWord 32 0x00000005 = some .clearCounts ∧
  decodeTableWord 16 0x000C = some (.resPop 0#32) ∧
  decodeTableWord 16 0x0004 = some (.statusW1c 0#32) ∧
  decodeTableWord 32 0x00000006 = none ∧
  decodeTableWord 32 0x00000011 = none

/-- R82: which words select which command. -/
def Obligations.CommandWordsAreExactlyZeroToFive : Prop :=
  (∀ v i, decodeCmd v = some i ↔
    (v = 0#32 ∧ i = .nop) ∨ (v = 1#32 ∧ i = .scanRow) ∨ (v = 2#32 ∧ i = .find) ∨
    (v = 3#32 ∧ i = .decode) ∨ (v = 4#32 ∧ i = .extract) ∨ (v = 5#32 ∧ i = .clearCounts)) ∧
  (∀ v : Word, (∃ i, decodeCmd v = some i) ↔
    v.extractLsb' 4 28 = 0#28 ∧ (v.extractLsb' 0 4).toNat ≤ 5)

/-- Decoding and encoding agree, in both directions and over every bus write: a write is an instruction exactly when
it is that instruction's encoding up to the two ignored address bits (R66, R82, R91). -/
def Obligations.DecodeAndEncodeAgree : Prop :=
  (∀ i : Instr, i.wf = true → decode (encode i) = .ok i) ∧
  (∀ (w : BusWrite) (i : Instr), decode w = .ok i ↔
    w.addr &&& 0xFFFC#16 = (encode i).addr ∧ w.data = (encode i).data)

/-- R91: the decoder and the rows of the opcode table accept the same writes, no write is accepted by two rows, and a
CMD write that matches no row is illegal. -/
def Obligations.TableRowsAndDecoderAcceptTheSameWrites : Prop :=
  (∀ w i, decode w = .ok i → ∃ r ∈ opcodeTable, r.accepts w = true ∧ r.mnemonic = i.mnemonic) ∧
  (∀ w, (∃ r ∈ opcodeTable, r.accepts w = true) → ∃ i, decode w = .ok i) ∧
  (∀ w, ∀ r ∈ opcodeTable, ∀ r' ∈ opcodeTable,
    r.accepts w = true → r'.accepts w = true → r = r') ∧
  (∀ w : BusWrite, w.addr &&& 0xFFFC#16 = 0x000#16 →
    (∀ r ∈ opcodeTable, r.accepts w = false) → decode w = .error .illegalCmd)

/-- A step runs the decoded instruction: the host's next write, when it decodes, is executed on the state whose turn
and statement have been taken; and `withFetchWord` places a table word so. -/
def Obligations.StepRunsTheDecodedInstruction : Prop :=
  (∀ (s : State) (a : BusAddr) (v : Word) (rest : List HostOp) (i : Instr),
    s.nextTurn = .host → s.program = .write a v :: rest → decode ⟨a, v⟩ = .ok i →
    step s = exec i { s.dropTurn with program := rest }) ∧
  (∀ (s : State) (nbits w : Nat) (i : Instr),
    decodeTableWord nbits w = some i → step (s.withFetchWord nbits w) = exec i s)

/-! ## What each instruction does -/

/-- R180: NOP clears ERR and sets DONE, nothing else; while a command runs it is rejected; a word with a reserved bit set
is no NOP but illegal. -/
def Obligations.NopSetsDoneAndClearsErr : Prop :=
  (∀ s : State, s.engine = .idle → exec .nop s = .next { s with err := .none, done := true }) ∧
  (∀ s : State, s.engine ≠ .idle → exec .nop s = .next { s with err := .busy }) ∧
  decode ⟨0x000#16, 0x00000000#32⟩ = .ok .nop ∧
  (∀ v : Word, v.extractLsb' 4 28 ≠ 0#28 → decode ⟨0x000#16, v⟩ = .error .illegalCmd)

/-- R181: CLEAR_COUNTS clears ERR and both counters and sets DONE, nothing else; while a command runs it is rejected; a
word with a reserved bit set is illegal. -/
def Obligations.ClearCountsClearsBothCounters : Prop :=
  (∀ s : State, s.engine = .idle →
    exec .clearCounts s = .next { s with
      err := .none, done := true, readingCount := 0#32, sanityFailCount := 0#32 }) ∧
  (∀ s : State, s.engine ≠ .idle → exec .clearCounts s = .next { s with err := .busy }) ∧
  decode ⟨0x000#16, 0x00000005#32⟩ = .ok .clearCounts ∧
  (∀ v : Word, v.extractLsb' 4 28 ≠ 0#28 → decode ⟨0x000#16, v⟩ = .error .illegalCmd)

/-- R182: a write of any value to RES_POP releases the result slot and changes nothing else, busy or not; an engine
held in EXTRACT then has an enabled step. -/
def Obligations.ResPopReleasesTheResultSlot : Prop :=
  (∀ (s : State) (v : Word), exec (.resPop v) s = .next { s with resValid := false }) ∧
  (∀ (s : State) (v : Word), s.resValid = false → exec (.resPop v) s = .next s) ∧
  (∀ (s t : State) (v : Word), s.engine = .extract → exec (.resPop v) s = .next t →
    t.engineEnabled = true)

/-- R183: a write to STATUS clears DONE if its bit 2 is 1 and changes nothing else, busy or not; irq follows. -/
def Obligations.StatusWriteClearsDoneByBitTwo : Prop :=
  (∀ (s : State) (v : Word), v.getLsbD 2 = true →
    exec (.statusW1c v) s = .next { s with done := false }) ∧
  (∀ (s : State) (v : Word), v.getLsbD 2 = false → exec (.statusW1c v) s = .next s) ∧
  (∀ (s t : State) (v : Word), v.getLsbD 2 = true → exec (.statusW1c v) s = .next t →
    t.irq = (s.resValid && s.irqEn.getLsbD 1))

/-- FIND completes (R83, R103, R104): on an idle block with a legal row it is accepted, and the engine's next step
leaves the search result from START in MATCH_POS and FOUND, DONE set, and nothing else changed. -/
def Obligations.FindCommandSearchesFromStart : Prop :=
  ∀ (s : State) (ts : List Turn), s.engine = .idle → s.len ≤ s.params.rowMaxBits →
    s.rowReadable = true → s.turns = .engine :: ts →
    ∃ t, exec .find s = .next t ∧
      t = { s with err := .none, done := false, mode := .single, engine := .find } ∧
      step t = .next { s with
        turns := ts
        err := .none
        done := true
        mode := .single
        matchPos := BitVec.ofNat 16 (search s.rowBit s.params.marker s.len s.start.toNat)
        found := decide (search s.rowBit s.params.marker s.len s.start.toNat < s.len) }

/-- DECODE completes (R83, R124, R125): on an idle block with a legal row it is accepted, and the engine's next step
leaves the decode from START in DEC_COUNT, PAYLOAD and SANITY_OK, a failure counted, DONE set, nothing else changed. -/
def Obligations.DecodeCommandDecodesFromStart : Prop :=
  ∀ (s : State) (ts : List Turn) (d : List Bool), s.engine = .idle →
    s.len ≤ s.params.rowMaxBits → s.rowReadable = true → s.turns = .engine :: ts →
    d = manch s.params.manchConv s.rowBit s.len s.start.toNat →
    ∃ t, exec .decode s = .next t ∧
      t = { s with err := .none, done := false, mode := .single, engine := .decode } ∧
      step t = .next { s with
        turns := ts
        err := .none
        done := true
        mode := .single
        decCount := BitVec.ofNat 7 d.length
        payload0 := payloadByteOf d 0 ++ payloadByteOf d 1 ++ payloadByteOf d 2
          ++ payloadByteOf d 3
        payload1 := payloadByteOf d 4 ++ payloadByteOf d 5 ++ payloadByteOf d 6
          ++ payloadByteOf d 7
        payload2 := payloadByteOf d 8 ++ payloadByteOf d 9
        sanityOk := decide (d.length = 80)
        sanityFailCount :=
          if d.length = 80 then s.sanityFailCount else s.sanityFailCount + 1#32 }

/-- EXTRACT completes (R83, R144, R145, R147, R149): on an idle block with a payload and a free result slot it is
accepted, and the engine's next step fills the slot, counts the reading, sets DONE, and changes nothing else. -/
def Obligations.ExtractCommandFillsTheResultSlot : Prop :=
  ∀ (s : State) (ts : List Turn), s.engine = .idle → s.sanityOk = true → s.resValid = false →
    s.turns = .engine :: ts →
    ∃ t, exec .extract s = .next t ∧
      t = { s with err := .none, done := false, mode := .single, engine := .extract } ∧
      step t = .next { s with
        turns := ts
        err := .none
        done := true
        mode := .single
        resId := s.payload0
        resFlags := 0#2 ++ s.payload1.extractLsb' 24 8
        resData := s.payload2.extractLsb' 8 8 ++ s.payload1.extractLsb' 0 8
          ++ s.payload1.extractLsb' 8 8 ++ s.payload1.extractLsb' 16 8
        resPos := s.rowIdx ++ s.matchPos
        resValid := true
        readingCount := s.readingCount + 1#32 }

/-- SCAN_ROW is accepted on an idle block with a legal row, and nothing but ERR, DONE, MODE, STATE and SCAN_POS changes
(R83, R160). What its engine steps do is stated below. -/
def Obligations.ScanRowCommandStartsAtOffsetZero : Prop :=
  ∀ s : State, s.engine = .idle → s.len ≤ s.params.rowMaxBits → s.rowReadable = true →
    exec .scanRow s = .next { s with
      err := .none, done := false, mode := .scan, engine := .find, scanPos := 0 }

/-- R170: the SCAN_ROW of a row shorter than 176 bits is a single FIND step, which reports the first marker (if any);
no decode, no reading. -/
def Obligations.ShortRowEndsAfterOneFindStep : Prop :=
  ∀ (s : State) (ts : List Turn), s.engine = .idle → s.len ≤ s.params.rowMaxBits →
    s.rowReadable = true → s.len < 176 → s.turns = .engine :: ts →
    ∃ t, exec .scanRow s = .next t ∧
      step t = .next { s with
        turns := ts
        err := .none
        done := true
        mode := .scan
        scanPos := 0
        matchPos := BitVec.ofNat 16 (search s.rowBit s.params.marker s.len 0)
        found := decide (search s.rowBit s.params.marker s.len 0 < s.len) }

/-- What an instruction leaves unchanged, whatever it answers next (R83, R182, R183, R200): it never touches RAW, the
operand registers, IRQ_EN, the results of a search, a decode or an extraction, nor the parameters; only CLEAR_COUNTS
touches the counters; only RES_POP touches RES_VALID; and RES_POP and the STATUS write leave ERR and the engine. -/
def Obligations.InstructionFrame : Prop :=
  ∀ (i : Instr) (s t : State), exec i s = .next t →
    (∀ a : Nat, t.rawByte a = s.rawByte a) ∧ t.raw = s.raw ∧ t.params = s.params ∧
    t.rowLen = s.rowLen ∧ t.start = s.start ∧ t.rowIdx = s.rowIdx ∧ t.irqEn = s.irqEn ∧
    t.found = s.found ∧ t.matchPos = s.matchPos ∧ t.sanityOk = s.sanityOk ∧
    t.decCount = s.decCount ∧ t.payload0 = s.payload0 ∧ t.payload1 = s.payload1 ∧
    t.payload2 = s.payload2 ∧ t.resId = s.resId ∧ t.resFlags = s.resFlags ∧
    t.resData = s.resData ∧ t.resPos = s.resPos ∧
    t.program = s.program ∧ t.noted = s.noted ∧ t.turns = s.turns ∧ t.powerOns = s.powerOns ∧
    (i ≠ .clearCounts →
      t.readingCount = s.readingCount ∧ t.sanityFailCount = s.sanityFailCount) ∧
    ((∀ v, i ≠ .resPop v) → t.resValid = s.resValid) ∧
    ((∃ v, i = .resPop v ∨ i = .statusW1c v) →
      t.err = s.err ∧ t.engine = s.engine ∧ t.mode = s.mode ∧ t.scanPos = s.scanPos) ∧
    ((∃ v, i = .resPop v) → t.done = s.done) ∧
    (i ≠ .scanRow → t.scanPos = s.scanPos) ∧
    (s.engine ≠ .idle → t.engine = s.engine ∧ t.mode = s.mode ∧ t.scanPos = s.scanPos)

/-! ## Rejections -/

/-- R80: a write to CMD meets the conditions in order, and the first that holds decides; what is accepted has the effect
R83 gives. (For a command that reads the row, the row is one the model may read: always so under treatment (a) of
U1.) -/
def Obligations.CmdWriteFollowsTheDecisionOrder : Prop :=
  ∀ (s : State) (a : BusAddr) (v : Word), a &&& 0xFFFC#16 = 0x000#16 →
    ((v.extractLsb' 0 4).toNat ∈ [1, 2, 3] → s.rowReadable = true) →
    busWrite a v s = .next (
      if s.engine ≠ .idle then { s with err := .busy }
      else if v.extractLsb' 4 28 ≠ 0#28 ∨ 6 ≤ (v.extractLsb' 0 4).toNat then
        { s with err := .illegalCmd }
      else if (v.extractLsb' 0 4).toNat ∈ [1, 2, 3] ∧ s.params.rowMaxBits < s.len then
        { s with err := .badLen }
      else if (v.extractLsb' 0 4).toNat = 4 ∧ s.sanityOk = false then
        { s with err := .noPayload }
      else match (v.extractLsb' 0 4).toNat with
        | 0 => { s with err := .none, done := true }
        | 1 => { s with
            err := .none, done := false, mode := .scan, scanPos := 0, engine := .find }
        | 2 => { s with err := .none, done := false, mode := .single, engine := .find }
        | 3 => { s with err := .none, done := false, mode := .single, engine := .decode }
        | 4 => { s with err := .none, done := false, mode := .single, engine := .extract }
        | _ => { s with
            err := .none, done := true, readingCount := 0#32, sanityFailCount := 0#32 })

/-- R86: a step that writes a command word with an opcode of 6 to 15, or with a reserved bit set, to an idle block sets
ERR = 1 and changes nothing else. -/
def Obligations.IllegalCommandWordSetsErrOnly : Prop :=
  ∀ (s : State) (a : BusAddr) (v : Word) (rest : List HostOp), s.nextTurn = .host →
    s.program = .write a v :: rest → a &&& 0xFFFC#16 = 0x000#16 → s.engine = .idle →
    (6 ≤ (v.extractLsb' 0 4).toNat ∨ v.extractLsb' 4 28 ≠ 0#28) →
    step s = .next { s.dropTurn with program := rest, err := .illegalCmd }

/-- R202: the three commands that read the row are refused for a row longer than the storage, the other three do the same
whatever ROW_LEN holds, and a length of exactly ROW_MAX_BITS is accepted. -/
def Obligations.RowLongerThanStorageIsRefused : Prop :=
  (∀ (s : State) (i : Instr), i ∈ [.scanRow, .find, .decode] → s.engine = .idle →
    s.params.rowMaxBits < s.len → exec i s = .next { s with err := .badLen }) ∧
  (∀ (s t : State) (i : Instr) (len : BitVec 16), i ∈ [.nop, .extract, .clearCounts] →
    exec i s = .next t → exec i { s with rowLen := len } = .next { t with rowLen := len }) ∧
  (∀ (s : State) (i : Instr), i ∈ [.scanRow, .find, .decode] → s.engine = .idle →
    s.len = s.params.rowMaxBits → s.rowReadable = true →
    ∃ t, exec i s = .next t ∧ t.err = .none ∧ t.engine ≠ .idle)

/-- EXTRACT is refused with ERR = 4 exactly when SANITY_OK = 0 (R203), whatever ROW_LEN holds. -/
def Obligations.ExtractWithoutPayloadIsRefused : Prop :=
  (∀ s : State, s.engine = .idle → s.sanityOk = false →
    exec .extract s = .next { s with err := .noPayload }) ∧
  (∀ s : State, s.engine = .idle → s.sanityOk = true →
    exec .extract s = .next { s with
      err := .none, done := false, mode := .single, engine := .extract })

/-- The model's only fault (log 3, log 11; D35 and U1, treatment (b)): the row-reading commands, once they would be
accepted, fault in a build with treatment (b) whose window [0, L) covers an unwritten word; a step that faults is the
host's write of such a command to such a block, so no other step of any build faults; and nothing is refused. -/
def Obligations.OnlyAnUnwrittenRowFaults : Prop :=
  (∀ (s : State) (i : Instr), i ∈ [.scanRow, .find, .decode] → s.engine = .idle →
    s.len ≤ s.params.rowMaxBits → s.params.rawTreatment = .unwrittenFaults →
    s.rowWritten = false → exec i s = .fault .unwrittenRow) ∧
  (∀ (s : State) (f : Fault), step s = .fault f →
    f = .unwrittenRow ∧ s.params.rawTreatment = .unwrittenFaults ∧ s.rowWritten = false ∧
    s.nextTurn = .host ∧ s.engine = .idle ∧ s.len ≤ s.params.rowMaxBits ∧
    ∃ a v rest i, s.program = .write a v :: rest ∧ decode ⟨a, v⟩ = .ok i ∧
      i ∈ [.scanRow, .find, .decode]) ∧
  (∀ (s : State) (r : Refusal), step s ≠ .refused r)

/-! ## The scanner -/

/-- R102: the search returns the least offset that satisfies the three conditions, and `L` if no offset does; it depends
on no row bit at `L` or above. -/
def Obligations.SearchReturnsTheLeastMatch : Prop :=
  ∀ (row : Nat → Bool) (mk : BitVec 16) (len s : Nat),
    ((∃ m, s ≤ m ∧ m + 16 ≤ len ∧ ∀ i < 16, row (m + i) = mk.getLsbD (15 - i)) →
      (s ≤ search row mk len s ∧ search row mk len s + 16 ≤ len ∧
        (∀ i < 16, row (search row mk len s + i) = mk.getLsbD (15 - i)) ∧
        ∀ m, s ≤ m → m + 16 ≤ len → (∀ i < 16, row (m + i) = mk.getLsbD (15 - i)) →
          search row mk len s ≤ m)) ∧
    ((¬ ∃ m, s ≤ m ∧ m + 16 ≤ len ∧ ∀ i < 16, row (m + i) = mk.getLsbD (15 - i)) →
      search row mk len s = len) ∧
    (∀ row' : Nat → Bool, (∀ k < len, row' k = row k) → search row' mk len s = search row mk len s)

/-- R107, for the default marker: two matches overlap only when they are 14 apart, and then they can. -/
def Obligations.DefaultMarkerOverlapsOnlyFourteenApart : Prop :=
  (∀ (row : Nat → Bool) (m d : Nat), 1 ≤ d → d ≤ 15 →
    (∀ i < 16, row (m + i) = (0x5559#16).getLsbD (15 - i)) →
    (∀ i < 16, row (m + d + i) = (0x5559#16).getLsbD (15 - i)) → d = 14) ∧
  (∃ row : Nat → Bool, (∀ i < 16, row i = (0x5559#16).getLsbD (15 - i)) ∧
    (∀ i < 16, row (14 + i) = (0x5559#16).getLsbD (15 - i)) ∧
    search row 0x5559#16 30 0 = 0 ∧ search row 0x5559#16 30 1 = 14)

/-- R105 and R108: the match is exact, one differing bit anywhere in the 16 rejects the offset; and the bits are compared
as stored, so the complement of a row that matches does not match there. -/
def Obligations.MatchIsExactAndNotInverted : Prop :=
  (∀ (row : Nat → Bool) (mk : BitVec 16) (m i : Nat), i < 16 →
    row (m + i) ≠ mk.getLsbD (15 - i) → matchesAt row mk m = false) ∧
  (∀ (row : Nat → Bool) (mk : BitVec 16) (m : Nat), matchesAt row mk m = true →
    matchesAt (fun k => !row k) mk m = false)

/-! ## The Manchester decoder -/

/-- R126: the count in closed form, the sanity check, and that a failed decode emits no reading. `k` is the index of the
first invalid pair among the available pairs, or 80 if none of them is invalid. -/
def Obligations.DecodeCountInClosedForm : Prop :=
  (∀ (conv : ManchConv) (row : Nat → Bool) (len s k avail : Nat),
    avail = min 80 (if s ≤ len then (len - s) / 2 else 0) →
    (∀ i < avail, i < k → row (s + 2 * i) ≠ row (s + 2 * i + 1)) →
    (k < avail ∧ row (s + 2 * k) = row (s + 2 * k + 1) ∨ k = 80) →
    (manch conv row len s).length = min avail k ∧
    ((manch conv row len s).length = 80 ↔
      s + 160 ≤ len ∧ ∀ i < 80, row (s + 2 * i) ≠ row (s + 2 * i + 1))) ∧
  (∀ s t : State, s.nextTurn = .engine → s.engine = .decode → step s = .next t →
    t.sanityOk = false → t.engine ≠ .extract ∧ t.resValid = s.resValid ∧
      t.readingCount = s.readingCount ∧ t.resId = s.resId ∧ t.resFlags = s.resFlags ∧
      t.resData = s.resData ∧ t.resPos = s.resPos)

/-- R120 and R122: bit `i` of a decode is the DecodeBit of pair `i`, which is valid and lies inside the row. -/
def Obligations.DecodedBitsAreThePairBits : Prop :=
  ∀ (row : Nat → Bool) (len s i : Nat) (conv : ManchConv),
    i < (manch conv row len s).length →
    s + 2 * i + 2 ≤ len ∧ row (s + 2 * i) ≠ row (s + 2 * i + 1) ∧
    (conv = .secondBit → payloadBit (manch conv row len s) i = row (s + 2 * i + 1)) ∧
    (conv = .firstBit → payloadBit (manch conv row len s) i = row (s + 2 * i))

/-- R121: the other convention complements every decoded bit, and neither the count nor the verdict depends on it; the
default is MANCH_CONV = 0. -/
def Obligations.OtherConventionComplementsEveryBit : Prop :=
  (∀ (row : Nat → Bool) (len s : Nat),
    manch .firstBit row len s = (manch .secondBit row len s).map (fun b => !b) ∧
    (manch .firstBit row len s).length = (manch .secondBit row len s).length) ∧
  Params.default.manchConv = .secondBit

/-- P7 and P2 of 95_test_vectors.md, for the decoder: the Manchester encoding of any 80 bits, under either convention,
anywhere in a row long enough, decodes to those bits. -/
def Obligations.ManchesterEncodingDecodesBack : Prop :=
  ∀ (conv : ManchConv) (row : Nat → Bool) (len s : Nat) (d : List Bool), d.length = 80 →
    s + 160 ≤ len →
    (∀ i < 80, row (s + 2 * i) = (if conv = .firstBit then d.getD i false else !d.getD i false) ∧
      row (s + 2 * i + 1) = (if conv = .firstBit then !d.getD i false else d.getD i false)) →
    manch conv row len s = d

/-- R38 and R123: a DECODE step leaves decoded bit `j` at bit `31 - (j mod 32)` of PAYLOAD(j div 32) as the host reads
it, 0 where the decode produced no bit, and bits 15:0 of PAYLOAD2 read 0. -/
def Obligations.PayloadRegistersHoldTheDecodedBits : Prop :=
  ∀ (s t : State) (d : List Bool), s.nextTurn = .engine → s.engine = .decode →
    d = (if s.mode = .scan then manch s.params.manchConv s.rowBit s.len (s.matchPos.toNat + 16)
      else manch s.params.manchConv s.rowBit s.len s.start.toNat) →
    step s = .next t →
    ∀ j < 32,
      (busRead t 0x024#16).getLsbD (31 - j) = d.getD j false ∧
      (busRead t 0x028#16).getLsbD (31 - j) = d.getD (32 + j) false ∧
      (busRead t 0x02C#16).getLsbD (31 - j) = (decide (j < 16) && d.getD (64 + j) false)

/-! ## The extractor -/

/-- R140 in decoded-bit terms, with R145 and R146: the fields of a reading extracted from a full decode `d`, whatever
the rest of the state. -/
def Obligations.ReadingFieldsAreTheDecodedBits : Prop :=
  ∀ (s : State) (d : List Bool), d.length = 80 →
    (∀ j < 32, (s.writeDecode d).emit.resId.getLsbD (31 - j) = d.getD j false) ∧
    (s.writeDecode d).emit.resFlags.getLsbD 7 = d.getD 32 false ∧
    (∀ j < 3, (s.writeDecode d).emit.resFlags.getLsbD (6 - j) = d.getD (33 + j) false) ∧
    (∀ j < 4, (s.writeDecode d).emit.resFlags.getLsbD (3 - j) = d.getD (36 + j) false) ∧
    (s.writeDecode d).emit.resFlags.extractLsb' 8 2 = 0#2 ∧
    (∀ j < 8, (s.writeDecode d).emit.resData.getLsbD (7 - j) = d.getD (40 + j) false) ∧
    (∀ j < 8, (s.writeDecode d).emit.resData.getLsbD (15 - j) = d.getD (48 + j) false) ∧
    (∀ j < 8, (s.writeDecode d).emit.resData.getLsbD (23 - j) = d.getD (56 + j) false) ∧
    (∀ j < 8, (s.writeDecode d).emit.resData.getLsbD (31 - j) = d.getD (64 + j) false)

/-- R144: the EXTRACT step in SINGLE mode emits and completes; while RES_VALID = 1, in either mode, the engine holds and
nothing changes but the turn taken. -/
def Obligations.ExtractStepEmitsOrHolds : Prop :=
  (∀ s : State, s.nextTurn = .engine → s.engine = .extract → s.mode = .single →
    s.resValid = false →
    step s = .next { s.dropTurn with
      resId := s.payload0
      resFlags := 0#2 ++ s.payload1.extractLsb' 24 8
      resData := s.payload2.extractLsb' 8 8 ++ s.payload1.extractLsb' 0 8
        ++ s.payload1.extractLsb' 8 8 ++ s.payload1.extractLsb' 16 8
      resPos := s.rowIdx ++ s.matchPos
      resValid := true
      readingCount := s.readingCount + 1#32
      engine := .idle
      done := true }) ∧
  (∀ s : State, s.nextTurn = .engine → s.engine = .extract → s.resValid = true →
    step s = .next s.dropTurn)

/-- R148: byte 9 is held in PAYLOAD2 bits 23:16 and changes no field of a reading. -/
def Obligations.ByteNineChangesNoReading : Prop :=
  ∀ (s : State) (b8 b9 b9' : Byte),
    ({ s with payload2 := b8 ++ b9 }.readReg .payload2).extractLsb' 16 8 = b9 ∧
    { { s with payload2 := b8 ++ b9 }.emit with payload2 := b8 ++ b9' } =
      { s with payload2 := b8 ++ b9' }.emit

/-! ## The scan -/

/-- R104 and R163: the FIND step. In SINGLE mode it searches from START and ends the command; in SCAN mode it searches
from SCAN_POS, and the row goes on to a decode only if 176 bits remain from the match. -/
def Obligations.FindStepSearchesTheRow : Prop :=
  (∀ (s : State) (m : Nat), s.nextTurn = .engine → s.engine = .find → s.mode = .single →
    m = search s.rowBit s.params.marker s.len s.start.toNat →
    step s = .next { s.dropTurn with
      matchPos := BitVec.ofNat 16 m
      found := decide (m < s.len)
      engine := .idle
      done := true }) ∧
  (∀ (s : State) (m : Nat), s.nextTurn = .engine → s.engine = .find → s.mode = .scan →
    m = search s.rowBit s.params.marker s.len s.scanPos →
    (m + 176 ≤ s.len → step s = .next { s.dropTurn with
      matchPos := BitVec.ofNat 16 m
      found := decide (m < s.len)
      engine := .decode }) ∧
    (s.len < m + 176 → step s = .next { s.dropTurn with
      matchPos := BitVec.ofNat 16 m
      found := decide (m < s.len)
      engine := .idle
      done := true }))

/-- R124 and R164: the DECODE step. In SINGLE mode pair 0 is at START and the command ends; in SCAN mode pair 0 is 16
bits after MATCH_POS, and the scan goes on to EXTRACT on success and to a search from MATCH_POS + SCAN_STEP on
failure. PAYLOAD is overwritten on failure too. -/
def Obligations.DecodeStepDecodesTheRow : Prop :=
  (∀ (s : State) (d : List Bool), s.nextTurn = .engine → s.engine = .decode →
    s.mode = .single → d = manch s.params.manchConv s.rowBit s.len s.start.toNat →
    step s = .next { s.dropTurn with
      decCount := BitVec.ofNat 7 d.length
      payload0 := payloadByteOf d 0 ++ payloadByteOf d 1 ++ payloadByteOf d 2 ++ payloadByteOf d 3
      payload1 := payloadByteOf d 4 ++ payloadByteOf d 5 ++ payloadByteOf d 6 ++ payloadByteOf d 7
      payload2 := payloadByteOf d 8 ++ payloadByteOf d 9
      sanityOk := decide (d.length = 80)
      sanityFailCount := if d.length = 80 then s.sanityFailCount else s.sanityFailCount + 1#32
      engine := .idle
      done := true }) ∧
  (∀ (s : State) (d : List Bool), s.nextTurn = .engine → s.engine = .decode → s.mode = .scan →
    d = manch s.params.manchConv s.rowBit s.len (s.matchPos.toNat + 16) →
    (d.length = 80 → step s = .next { s.dropTurn with
      decCount := 80#7
      payload0 := payloadByteOf d 0 ++ payloadByteOf d 1 ++ payloadByteOf d 2 ++ payloadByteOf d 3
      payload1 := payloadByteOf d 4 ++ payloadByteOf d 5 ++ payloadByteOf d 6 ++ payloadByteOf d 7
      payload2 := payloadByteOf d 8 ++ payloadByteOf d 9
      sanityOk := true
      engine := .extract }) ∧
    (d.length ≠ 80 → step s = .next { s.dropTurn with
      decCount := BitVec.ofNat 7 d.length
      payload0 := payloadByteOf d 0 ++ payloadByteOf d 1 ++ payloadByteOf d 2 ++ payloadByteOf d 3
      payload1 := payloadByteOf d 4 ++ payloadByteOf d 5 ++ payloadByteOf d 6 ++ payloadByteOf d 7
      payload2 := payloadByteOf d 8 ++ payloadByteOf d 9
      sanityOk := false
      sanityFailCount := s.sanityFailCount + 1#32
      scanPos := s.matchPos.toNat + s.params.scanStep
      engine := .find }))

/-- R165: the EXTRACT step in SCAN mode. -/
def Obligations.ExtractStepInScanMode : Prop :=
  ∀ s : State, s.nextTurn = .engine → s.engine = .extract → s.mode = .scan →
    s.resValid = false →
    step s = .next { s.dropTurn with
      resId := s.payload0
      resFlags := 0#2 ++ s.payload1.extractLsb' 24 8
      resData := s.payload2.extractLsb' 8 8 ++ s.payload1.extractLsb' 0 8
        ++ s.payload1.extractLsb' 8 8 ++ s.payload1.extractLsb' 16 8
      resPos := s.rowIdx ++ s.matchPos
      resValid := true
      readingCount := s.readingCount + 1#32
      scanPos := s.matchPos.toNat + s.params.scanStep
      engine := .find }

/-- R168: a SCAN-mode decode has its 160 raw bits inside the row, so a SCAN-mode sanity failure is an invalid pair. The
premise is the invariant of `EveryStepKeepsTheInvariant`. -/
def Obligations.ScanFailureIsAnInvalidPair : Prop :=
  ∀ s t : State, s.Inv → s.nextTurn = .engine → s.engine = .decode → s.mode = .scan →
    step s = .next t →
    s.matchPos.toNat + 16 + 160 ≤ s.len ∧
    (t.sanityOk = false → ∃ i < 80,
      s.rowBit (s.matchPos.toNat + 16 + 2 * i) = s.rowBit (s.matchPos.toNat + 16 + 2 * i + 1))

/-- The scan's searches start at strictly increasing offsets (R169): a SCAN-mode FIND that goes on finds a match at or
after SCAN_POS, and every way back to FIND searches from MATCH_POS + SCAN_STEP, which is greater than the match. The
premise is the invariant of `EveryStepKeepsTheInvariant`. -/
def Obligations.ScanSearchesStrictlyAdvance : Prop :=
  (∀ s t : State, s.nextTurn = .engine → s.engine = .find → s.mode = .scan → step s = .next t →
    t.engine = .decode → s.scanPos ≤ t.matchPos.toNat ∧ t.scanPos = s.scanPos) ∧
  (∀ s t : State, s.Inv → s.nextTurn = .engine → (s.engine = .decode ∨ s.engine = .extract) →
    s.mode = .scan → step s = .next t → t.engine = .find →
    t.scanPos = s.matchPos.toNat + s.params.scanStep ∧ s.matchPos.toNat < t.scanPos ∧
    t.matchPos = s.matchPos)

/-- R169: a SCAN_ROW whose host pops after every engine step ends within 3A + 1 engine steps, after at most A decodes,
each of which is one reading or one sanity failure. The schedule, an engine turn and a host turn alternating, is the
model's form of the interleaving (log 1), and the engine turns left once the command has ended change nothing, which is
the model's choice (log 16). -/
def Obligations.ScanRowTerminatesWithinTheBound : Prop :=
  ∀ (s : State) (A n : Nat), s.params.wf = true → s.engine = .idle →
    s.len ≤ s.params.rowMaxBits → s.rowReadable = true → s.resValid = false →
    A = (if 176 ≤ s.len then (s.len - 176) / s.params.scanStep + 1 else 0) →
    3 * A + 1 ≤ n →
    s.turns = (List.replicate n [Turn.engine, Turn.host]).flatten →
    s.program = List.replicate n popResult →
    ∃ t u, exec .scanRow s = .next t ∧ core.run (2 * n) t = .next u ∧
      u.engine = .idle ∧ u.done = true ∧ u.mode = .scan ∧ u.turns = [] ∧
      ∃ readings failures : Nat, readings + failures ≤ A ∧
        u.readingCount = s.readingCount + BitVec.ofNat 32 readings ∧
        u.sanityFailCount = s.sanityFailCount + BitVec.ofNat 32 failures

/-- P2 and P7 of 95_test_vectors.md, in general: a row of 176 bits that holds the marker and then valid pairs decoding
to `d` yields exactly one reading, whose fields are the bits of `d`, in four engine steps. -/
def Obligations.RowWithOnePacketYieldsItsReading : Prop :=
  ∀ (s : State) (ts : List Turn) (d : List Bool), s.engine = .idle → s.params.wf = true →
    s.len = 176 → s.len ≤ s.params.rowMaxBits → s.rowReadable = true → s.resValid = false →
    matchesAt s.rowBit s.params.marker 0 = true → d.length = 80 →
    (∀ i < 80, s.rowBit (16 + 2 * i) ≠ s.rowBit (16 + 2 * i + 1) ∧
      d.getD i false = decodeBit s.params.manchConv (s.rowBit (16 + 2 * i))
        (s.rowBit (16 + 2 * i + 1))) →
    s.turns = [.engine, .engine, .engine, .engine] ++ ts →
    ∃ t u, exec .scanRow s = .next t ∧ core.run 4 t = .next u ∧
      u.engine = .idle ∧ u.done = true ∧ u.err = .none ∧ u.resValid = true ∧
      u.sanityOk = true ∧ u.readingCount = s.readingCount + 1#32 ∧
      u.sanityFailCount = s.sanityFailCount ∧ u.resPos = s.rowIdx ++ 0#16 ∧ u.turns = ts ∧
      u.raw = s.raw ∧
      (∀ j < 32, u.resId.getLsbD (31 - j) = d.getD j false) ∧
      (∀ j < 8, u.resFlags.getLsbD (7 - j) = d.getD (32 + j) false) ∧
      (∀ j < 8, u.resData.getLsbD (7 - j) = d.getD (40 + j) false) ∧
      (∀ j < 8, u.resData.getLsbD (15 - j) = d.getD (48 + j) false) ∧
      (∀ j < 8, u.resData.getLsbD (23 - j) = d.getD (56 + j) false) ∧
      (∀ j < 8, u.resData.getLsbD (31 - j) = d.getD (64 + j) false)

/-! ## Bus accesses that are no instruction -/

/-- R67: a read notes the register's or the RAW word's value and changes no state of the block; every register reads as
10_state.md lays it out (STATUS, PARAM0 and PARAM1: see below), CMD and RES_POP read 0. -/
def Obligations.ReadsHaveNoSideEffect : Prop :=
  (∀ (s : State) (a : BusAddr) (rest : List HostOp), s.nextTurn = .host →
    s.program = .read a :: rest →
    step s = .next { s.dropTurn with program := rest, noted := s.noted ++ [busRead s a] }) ∧
  (∀ s : State, busRead s 0x000#16 = 0#32 ∧ busRead s 0x00C#16 = 0#32 ∧
    busRead s 0x008#16 = 0#30 ++ s.irqEn ∧ busRead s 0x010#16 = 0#16 ++ s.rowLen ∧
    busRead s 0x014#16 = 0#16 ++ s.start ∧ busRead s 0x018#16 = 0#24 ++ s.rowIdx ∧
    busRead s 0x01C#16 = 0#16 ++ s.matchPos ∧ busRead s 0x020#16 = 0#25 ++ s.decCount ∧
    busRead s 0x024#16 = s.payload0 ∧ busRead s 0x028#16 = s.payload1 ∧
    busRead s 0x02C#16 = s.payload2 ++ 0#16 ∧ busRead s 0x030#16 = s.resId ∧
    busRead s 0x034#16 = 0#22 ++ s.resFlags ∧ busRead s 0x038#16 = s.resData ∧
    busRead s 0x03C#16 = 0#8 ++ s.resPos ∧ busRead s 0x040#16 = s.readingCount ∧
    busRead s 0x044#16 = s.sanityFailCount) ∧
  (∀ (s : State) (w : Nat), s.params.wf = true → 32 * w < s.params.rowMaxBits →
    busRead s (BitVec.ofNat 16 (0x1000 + 4 * w)) = s.rawWord w)

/-- R22: every field of STATUS as the host reads it, at its place, with the codes of R29, R30 and R201. -/
def Obligations.StatusReadsItsFields : Prop :=
  ∀ s : State,
    (busRead s 0x004#16).getLsbD 0 = decide (s.engine ≠ .idle) ∧
    (busRead s 0x004#16).getLsbD 1 = s.resValid ∧
    (busRead s 0x004#16).getLsbD 2 = s.done ∧
    (busRead s 0x004#16).getLsbD 3 = s.found ∧
    (busRead s 0x004#16).getLsbD 4 = s.sanityOk ∧
    (busRead s 0x004#16).extractLsb' 5 3 = 0#3 ∧
    (busRead s 0x004#16).extractLsb' 8 4 =
      (match s.err with
        | .none => 0#4 | .illegalCmd => 1#4 | .busy => 2#4 | .badLen => 3#4 | .noPayload => 4#4) ∧
    (busRead s 0x004#16).extractLsb' 12 3 =
      (match s.engine with | .idle => 0#3 | .find => 1#3 | .decode => 2#3 | .extract => 3#3) ∧
    (busRead s 0x004#16).getLsbD 15 = decide (s.mode = .scan) ∧
    (busRead s 0x004#16).extractLsb' 16 16 = 0#16

/-- R44: PARAM0 and PARAM1 read the build parameters of a legal build, no step changes them, and the defaults read
0x00000400 and 0x00025559. -/
def Obligations.ParameterRegistersAreConstant : Prop :=
  (∀ s : State, s.params.wf = true →
    ((busRead s 0x048#16).extractLsb' 0 16).toNat = s.params.rowMaxBits ∧
    (busRead s 0x048#16).getLsbD 16 = decide (s.params.manchConv = .firstBit) ∧
    (busRead s 0x048#16).extractLsb' 17 15 = 0#15 ∧
    (busRead s 0x04C#16).extractLsb' 0 16 = s.params.marker ∧
    ((busRead s 0x04C#16).extractLsb' 16 8).toNat = s.params.scanStep ∧
    (busRead s 0x04C#16).extractLsb' 24 8 = 0#8) ∧
  (∀ s t : State, step s = .next t → t.params = s.params) ∧
  (∀ s : State, s.params = Params.default →
    busRead s 0x048#16 = 0x00000400#32 ∧ busRead s 0x04C#16 = 0x00025559#32)

/-- R66: address bits 1:0 are ignored by reads and writes alike. -/
def Obligations.LowAddressBitsAreIgnored : Prop :=
  ∀ (s : State) (a : BusAddr) (v : Word),
    busRead s a = busRead s (a &&& 0xFFFC#16) ∧ busWrite a v s = busWrite (a &&& 0xFFFC#16) v s

/-- R51 and R68: a write to a read-only register or to an address with no register changes nothing, and such an address
reads 0. -/
def Obligations.ReadOnlyAndUnmappedWritesAreIgnored : Prop :=
  (∀ (s : State) (a : BusAddr) (v : Word), 0x01C ≤ a.toNat → a.toNat < 0x050 →
    busWrite a v s = .next s) ∧
  (∀ (s : State) (a : BusAddr) (v : Word), s.params.wf = true →
    (0x050 ≤ a.toNat ∧ a.toNat < 0x1000 ∨ 0x1000 + s.params.rowMaxBits / 8 ≤ a.toNat) →
    busWrite a v s = .next s ∧ busRead s a = 0#32)

/-- R184 and R185: while BUSY = 0 a write to an operand register stores its masked value and one to RAW[w] all 32 bits,
at the bytes of RAW[w] (`State.writeRaw`; RawWriteStoresItsWordOnly says it byte by byte); IRQ_EN stores at any time and
irq follows at once; nothing else changes, ERR included. -/
def Obligations.OperandWritesStoreWhileIdle : Prop :=
  ∀ (s : State) (v : Word),
    busWrite 0x008#16 v s = .next { s with irqEn := v.extractLsb' 0 2 } ∧
    State.irq { s with irqEn := v.extractLsb' 0 2 } =
      ((s.done && v.getLsbD 0) || (s.resValid && v.getLsbD 1)) ∧
    (s.engine = .idle →
      busWrite 0x010#16 v s = .next { s with rowLen := v.extractLsb' 0 16 } ∧
      busWrite 0x014#16 v s = .next { s with start := v.extractLsb' 0 16 } ∧
      busWrite 0x018#16 v s = .next { s with rowIdx := v.extractLsb' 0 8 } ∧
      (∀ w : Nat, s.params.wf = true → 32 * w < s.params.rowMaxBits →
        busWrite (BitVec.ofNat 16 (0x1000 + 4 * w)) v s = .next (s.writeRaw w v) ∧
        (s.writeRaw w v).rawWord w = v ∧
        (∀ a : Nat, a < rawAddr w ∨ rawAddr w + 4 ≤ a →
          (s.writeRaw w v).rawByte a = s.rawByte a)))

/-- R60, R61 and R185: while BUSY = 0 a write to RAW[w] at bus address 0x1000 + 4w reads back, gives row bit `32w + j`
the value of its bit `31 - j`, and leaves every other byte of RAW and every register as it was. -/
def Obligations.RawWriteStoresItsWordOnly : Prop :=
  ∀ (s : State) (w : Nat) (v : Word), s.params.wf = true → s.engine = .idle →
    32 * w < s.params.rowMaxBits →
    ∃ t, busWrite (BitVec.ofNat 16 (0x1000 + 4 * w)) v s = .next t ∧
      busRead t (BitVec.ofNat 16 (0x1000 + 4 * w)) = v ∧
      (∀ j < 32, t.rowBit (32 * w + j) = v.getLsbD (31 - j)) ∧
      (∀ a : Nat, a < 0x1000 + 4 * w ∨ 0x1000 + 4 * w + 4 ≤ a → t.rawByte a = s.rawByte a) ∧
      (∀ k : Nat, k / 32 ≠ w → t.rowBit k = s.rowBit k) ∧
      t = { s with raw := t.raw }

/-- R53, write by write: while BUSY = 1 a write to ROW_LEN, START, ROW_IDX or a RAW word is ignored and sets ERR = 2, and
so is a write to CMD; a write to STATUS, IRQ_EN or RES_POP is not guarded. -/
def Obligations.GuardedWritesAreIgnoredWhileBusy : Prop :=
  ∀ (s : State) (a : BusAddr) (v : Word), s.engine ≠ .idle → s.params.wf = true →
    ((0x010 ≤ a.toNat ∧ a.toNat < 0x01C ∨
        0x1000 ≤ a.toNat ∧ a.toNat < 0x1000 + s.params.rowMaxBits / 8 ∨ a.toNat < 0x004) →
      busWrite a v s = .next { s with err := .busy }) ∧
    (0x004 ≤ a.toNat ∧ a.toNat < 0x008 →
      busWrite a v s = .next { s with done := s.done && !v.getLsbD 2 }) ∧
    (0x008 ≤ a.toNat ∧ a.toNat < 0x00C →
      busWrite a v s = .next { s with irqEn := v.extractLsb' 0 2 }) ∧
    (0x00C ≤ a.toNat ∧ a.toNat < 0x010 → busWrite a v s = .next { s with resValid := false })

/-- R89, the polling loops: one round reads STATUS and notes it; `wait_idle` goes on to the next statement when BUSY = 0,
`wait_event` when BUSY = 0 or RES_VALID = 1, and either stays otherwise. -/
def Obligations.PollingLoopsReadUntilTheirBit : Prop :=
  (∀ (s : State) (rest : List HostOp), s.nextTurn = .host → s.program = .waitIdle :: rest →
    step s = .next { s.dropTurn with
      noted := s.noted ++ [busRead s 0x004#16]
      program := if s.engine = .idle then rest else .waitIdle :: rest }) ∧
  (∀ (s : State) (rest : List HostOp), s.nextTurn = .host → s.program = .waitEvent :: rest →
    step s = .next { s.dropTurn with
      noted := s.noted ++ [busRead s 0x004#16]
      program :=
        if s.engine = .idle ∨ s.resValid = true then rest else .waitEvent :: rest })

/-! ## Reset and the interrupt -/

/-- R230 and R231: a reset, at power-on or later, puts every register and the engine to its reset value, whatever was
running; STATUS reads 0 and irq is 0; a reset that is not a power-on leaves RAW as it was. That a reset or a power-on is
one step, and that the host's own data (program, noted values, schedule) stay, is the model's choice (log 6). -/
def Obligations.ResetClearsRegistersAndKeepsRaw : Prop :=
  ∀ s : State, (s.nextTurn = .reset ∨ s.nextTurn = .powerOn) →
    ∃ t, step s = .next t ∧ t.params = s.params ∧
      (s.nextTurn = .reset → t.raw = s.raw ∧ ∀ a : Nat, t.rawByte a = s.rawByte a) ∧
      t.engine = .idle ∧ t.mode = .single ∧ t.scanPos = 0 ∧ t.irq = false ∧
      (∀ r : Reg, r ≠ .param0 → r ≠ .param1 → busRead t r.addr = 0#32) ∧
      t.program = s.program ∧ t.noted = s.noted ∧ t.turns = s.dropTurn.turns

/-- R205: irq is the stated function of the state; it is 0 at reset, a pop leaves at most the command-complete source, and
an accepted engine command or a STATUS W1C leaves at most the reading-available source. -/
def Obligations.InterruptLevelFollowsItsTwoSources : Prop :=
  (∀ s : State, s.irq = ((s.done && (busRead s 0x008#16).getLsbD 0) ||
    (s.resValid && (busRead s 0x008#16).getLsbD 1))) ∧
  State.reset.irq = false ∧
  (∀ (s t : State) (v : Word), exec (.resPop v) s = .next t →
    t.irq = (s.done && s.irqEn.getLsbD 0)) ∧
  (∀ (s t : State) (i : Instr), i ∈ [.scanRow, .find, .decode, .extract] → s.engine = .idle →
    exec i s = .next t → t.err = .none → t.irq = (s.resValid && s.irqEn.getLsbD 1)) ∧
  (∀ (s t : State) (v : Word), v.getLsbD 2 = true → exec (.statusW1c v) s = .next t →
    t.irq = (s.resValid && s.irqEn.getLsbD 1))

/-! ## The whole machine -/

/-- The invariant holds after reset. -/
def Obligations.ResetMeetsTheInvariant : Prop := State.reset.Inv

/-- The invariant is kept by every step, from every state that meets it. -/
def Obligations.EveryStepKeepsTheInvariant : Prop :=
  ∀ s t : State, s.Inv → step s = .next t → t.Inv

/-- R53 and R64: as long as a command runs, no step but a reset changes the row, its length, the start offset or the row
tag, and no engine step ever does. -/
def Obligations.InputsStayFixedWhileACommandRuns : Prop :=
  ∀ s t : State, step s = .next t → s.nextTurn ≠ .reset → s.nextTurn ≠ .powerOn →
    (s.engine ≠ .idle ∨ s.nextTurn = .engine) →
    t.raw = s.raw ∧ t.rowLen = s.rowLen ∧ t.start = s.start ∧ t.rowIdx = s.rowIdx ∧
    (∀ k : Nat, t.rowBit k = s.rowBit k)

/-- R63: the bits of RAW at offsets L and above influence no result of an engine step, and the engine never writes
RAW: two states that differ only in RAW, and agree on the row below L, take the same step. -/
def Obligations.BitsBeyondTheRowInfluenceNothing : Prop :=
  ∀ (s s' t : State), s' = { s with raw := s'.raw } → (∀ k < s.len, s'.rowBit k = s.rowBit k) →
    s.nextTurn = .engine → step s = .next t →
    t.raw = s.raw ∧ step s' = .next { t with raw := s'.raw }

/-- R47: what a DECODE step leaves in PAYLOAD, DEC_COUNT and SANITY_OK depends on the row below L, its length, the
convention and the offset only, never on an earlier command's results. -/
def Obligations.DecodeKeepsNoHistory : Prop :=
  ∀ s s' t t' : State, s.nextTurn = .engine → s'.nextTurn = .engine → s.engine = .decode →
    s'.engine = .decode → s'.mode = s.mode → s'.rowLen = s.rowLen →
    s'.params.manchConv = s.params.manchConv → (∀ k < s.len, s'.rowBit k = s.rowBit k) →
    (s.mode = .single → s'.start = s.start) → (s.mode = .scan → s'.matchPos = s.matchPos) →
    step s = .next t → step s' = .next t' →
    t'.payload0 = t.payload0 ∧ t'.payload1 = t.payload1 ∧ t'.payload2 = t.payload2 ∧
    t'.decCount = t.decCount ∧ t'.sanityOk = t.sanityOk

/-- R24: RES_VALID is set by every enabled EXTRACT step and by nothing else, cleared by every RES_POP write and every
reset and by nothing else, and while it stays 1 the four result registers do not change. -/
def Obligations.ResultSlotIsStableUntilPopped : Prop :=
  ∀ s t : State, step s = .next t →
    (s.resValid = false → t.resValid = true → s.nextTurn = .engine ∧ s.engine = .extract) ∧
    (s.resValid = true → t.resValid = false →
      s.nextTurn = .reset ∨ s.nextTurn = .powerOn ∨
      (s.nextTurn = .host ∧ ∃ a v rest, s.program = .write a v :: rest ∧
        a &&& 0xFFFC#16 = 0x00C#16)) ∧
    (s.nextTurn = .engine → s.engine = .extract → s.resValid = false → t.resValid = true) ∧
    (∀ a v rest, s.nextTurn = .host → s.program = .write a v :: rest →
      a &&& 0xFFFC#16 = 0x00C#16 → t.resValid = false) ∧
    (s.nextTurn = .reset ∨ s.nextTurn = .powerOn → t.resValid = false) ∧
    (s.resValid = true → t.resValid = true →
      t.resId = s.resId ∧ t.resFlags = s.resFlags ∧ t.resData = s.resData ∧ t.resPos = s.resPos)

/-- R25: DONE is set by a step that ends an engine command and by the acceptance of NOP or CLEAR_COUNTS, and by nothing
else; it is cleared by the acceptance of an engine command, a STATUS write with bit 2 set, and reset, and by nothing
else. -/
def Obligations.DoneIsSetByCompletionOnly : Prop :=
  ∀ s t : State, step s = .next t →
    (s.done = false → t.done = true →
      (s.nextTurn = .engine ∧ s.engine ≠ .idle ∧ t.engine = .idle) ∨
      (s.nextTurn = .host ∧ s.engine = .idle ∧ ∃ a v rest, s.program = .write a v :: rest ∧
        (decode ⟨a, v⟩ = .ok .nop ∨ decode ⟨a, v⟩ = .ok .clearCounts))) ∧
    (s.nextTurn = .engine → s.engine ≠ .idle → t.engine = .idle → t.done = true) ∧
    (∀ a v rest, s.nextTurn = .host → s.engine = .idle → s.program = .write a v :: rest →
      (decode ⟨a, v⟩ = .ok .nop ∨ decode ⟨a, v⟩ = .ok .clearCounts) → t.done = true) ∧
    (s.done = true → t.done = false →
      s.nextTurn = .reset ∨ s.nextTurn = .powerOn ∨
      (s.nextTurn = .host ∧ ∃ a v rest, s.program = .write a v :: rest ∧
        ((a &&& 0xFFFC#16 = 0x000#16 ∧ s.engine = .idle ∧ t.err = .none) ∨
          (a &&& 0xFFFC#16 = 0x004#16 ∧ v.getLsbD 2 = true)))) ∧
    (s.nextTurn = .reset ∨ s.nextTurn = .powerOn → t.done = false) ∧
    (∀ a v rest, s.nextTurn = .host → s.program = .write a v :: rest →
      (a &&& 0xFFFC#16 = 0x000#16 ∧ s.engine = .idle ∧ t.engine ≠ .idle ∨
        a &&& 0xFFFC#16 = 0x004#16 ∧ v.getLsbD 2 = true) → t.done = false)

/-- R26, R27 and R28: only FIND steps write FOUND and MATCH_POS, only DECODE steps write SANITY_OK, DEC_COUNT and PAYLOAD
(reset apart), engine steps never write ERR, and no host step does but a write to CMD and, while a command runs, a
guarded write: to ROW_LEN, START, ROW_IDX or, in a legal build, inside the RAW window. -/
def Obligations.FlagsHaveTheirOwnWriters : Prop :=
  ∀ s t : State, step s = .next t → s.nextTurn ≠ .reset → s.nextTurn ≠ .powerOn →
    ((t.found ≠ s.found ∨ t.matchPos ≠ s.matchPos) →
      s.nextTurn = .engine ∧ s.engine = .find) ∧
    ((t.sanityOk ≠ s.sanityOk ∨ t.decCount ≠ s.decCount ∨ t.payload0 ≠ s.payload0 ∨
        t.payload1 ≠ s.payload1 ∨ t.payload2 ≠ s.payload2) →
      s.nextTurn = .engine ∧ s.engine = .decode) ∧
    (t.err ≠ s.err → s.nextTurn = .host ∧ ∃ a v rest, s.program = .write a v :: rest ∧
      (a &&& 0xFFFC#16 = 0x000#16 ∨
        (s.engine ≠ .idle ∧ t.err = .busy ∧
          (0x010 ≤ a.toNat ∧ a.toNat < 0x01C ∨
            0x1000 ≤ a.toNat ∧
              (s.params.wf = true → a.toNat < 0x1000 + s.params.rowMaxBits / 8)))))

/-- R43 and R210: every enabled EXTRACT step adds 1 to READING_COUNT modulo 2^32, every DECODE step that fails adds 1 to
SANITY_FAIL_COUNT modulo 2^32, an accepted CLEAR_COUNTS and a reset set both to 0, and nothing else changes either. -/
def Obligations.CountersCountOneEventEach : Prop :=
  ∀ s t : State, step s = .next t →
    (s.nextTurn = .engine → s.engine = .extract → s.resValid = false →
      t.readingCount = s.readingCount + 1#32) ∧
    (s.nextTurn = .engine → s.engine = .decode → t.sanityOk = false →
      t.sanityFailCount = s.sanityFailCount + 1#32) ∧
    (∀ a v rest, s.nextTurn = .host → s.engine = .idle → s.program = .write a v :: rest →
      decode ⟨a, v⟩ = .ok .clearCounts → t.readingCount = 0#32 ∧ t.sanityFailCount = 0#32) ∧
    (s.nextTurn = .reset ∨ s.nextTurn = .powerOn →
      t.readingCount = 0#32 ∧ t.sanityFailCount = 0#32) ∧
    (t.readingCount ≠ s.readingCount →
      s.nextTurn = .reset ∨ s.nextTurn = .powerOn ∨
      (s.nextTurn = .engine ∧ s.engine = .extract ∧ s.resValid = false) ∨
      (s.nextTurn = .host ∧ s.engine = .idle ∧ ∃ a v rest, s.program = .write a v :: rest ∧
        decode ⟨a, v⟩ = .ok .clearCounts)) ∧
    (t.sanityFailCount ≠ s.sanityFailCount →
      s.nextTurn = .reset ∨ s.nextTurn = .powerOn ∨
      (s.nextTurn = .engine ∧ s.engine = .decode ∧ t.sanityOk = false) ∨
      (s.nextTurn = .host ∧ s.engine = .idle ∧ ∃ a v rest, s.program = .write a v :: rest ∧
        decode ⟨a, v⟩ = .ok .clearCounts))

/-- R71, as the model has it (log 17): whatever finite interleaving is scheduled, once it is used up an enabled engine
moves next. -/
def Obligations.EnabledEngineMovesWhenTheScheduleEnds : Prop :=
  ∀ s u : State, core.run s.turns.length s = .next u → u.turns = [] ∧
    (u.engineEnabled = true → step u = .next (engineStep u))
end

