-- ==== Sys2Proof/Laws/Decode.lean ====
section
/-! SUPPORT. What the address and command decoders can answer. -/

namespace Sys2Proof

/-- A register is found only at its own word address. -/
theorem regAt_eq_some {a : BusAddr} {r : Reg} (h : regAt a = some r) : wordAddr a = r.addr := by
  have := List.find?_some h
  simpa using (beq_iff_eq.mp this).symm

/-- Each register is found at its own address, whatever the two low address bits are. -/
theorem regAt_of_wordAddr {a : BusAddr} {r : Reg} (h : wordAddr a = r.addr) : regAt a = some r := by
  unfold regAt
  rw [h]
  cases r <;> rfl

theorem regAt_iff (a : BusAddr) (r : Reg) : regAt a = some r ↔ wordAddr a = r.addr :=
  ⟨regAt_eq_some, regAt_of_wordAddr⟩

/-- The reserved field is zero exactly for a word below 16, which is then its opcode (R81). -/
theorem cmdReserved_eq_zero (v : Word) : cmdReserved v = 0#28 ↔ v.toNat < 16 := by
  have hv := v.isLt
  rw [← BitVec.toNat_inj]
  simp only [cmdReserved, BitVec.extractLsb'_toNat, BitVec.toNat_ofNat, Nat.shiftRight_eq_div_pow]
  omega

theorem cmdOpcode_toNat (v : Word) : (cmdOpcode v).toNat = v.toNat % 16 := by
  simp [cmdOpcode, BitVec.extractLsb'_toNat]

/-- The six legal command words are 0 to 5, one command each (R82). -/
theorem decodeCmd_eq_some {v : Word} {i : Instr} (h : decodeCmd v = some i) :
    (v = 0#32 ∧ i = .nop) ∨ (v = 1#32 ∧ i = .scanRow) ∨ (v = 2#32 ∧ i = .find) ∨
    (v = 3#32 ∧ i = .decode) ∨ (v = 4#32 ∧ i = .extract) ∨ (v = 5#32 ∧ i = .clearCounts) := by
  unfold decodeCmd at h
  split at h
  · next hr =>
    rw [cmdReserved_eq_zero] at hr
    rw [cmdOpcode_toNat, Nat.mod_eq_of_lt hr] at h
    have word : ∀ n, v.toNat = n → v = BitVec.ofNat 32 n := by
      rintro n rfl; simp
    split at h
    · next e => exact .inl ⟨word 0 e, by simpa using h.symm⟩
    · next e => exact .inr (.inl ⟨word 1 e, by simpa using h.symm⟩)
    · next e => exact .inr (.inr (.inl ⟨word 2 e, by simpa using h.symm⟩))
    · next e => exact .inr (.inr (.inr (.inl ⟨word 3 e, by simpa using h.symm⟩)))
    · next e => exact .inr (.inr (.inr (.inr (.inl ⟨word 4 e, by simpa using h.symm⟩))))
    · next e => exact .inr (.inr (.inr (.inr (.inr ⟨word 5 e, by simpa using h.symm⟩))))
    · cases h
  · cases h

/-- The word address is the byte address rounded down to a multiple of 4 (R66). -/
theorem wordAddr_toNat (a : BusAddr) : (wordAddr a).toNat = a.toNat / 4 * 4 := by
  have h : wordAddr a = (a >>> 2) <<< 2 := by
    apply BitVec.eq_of_getLsbD_eq
    intro i hi
    simp only [wordAddr]
    interval_cases i <;> simp
  have := a.isLt
  rw [h, BitVec.toNat_shiftLeft, BitVec.toNat_ushiftRight, Nat.shiftRight_eq_div_pow,
    Nat.shiftLeft_eq]
  omega

/-- No register lies at or above 0x050 (R20). -/
theorem regAt_eq_none {a : BusAddr} (h : 0x050 ≤ a.toNat) : regAt a = none := by
  cases h' : regAt a with
  | none => rfl
  | some r =>
    have := congrArg BitVec.toNat (regAt_eq_some h')
    rw [wordAddr_toNat] at this
    cases r <;> simp [Reg.addr] at this <;> omega

end Sys2Proof
end

