-- ==== Sys2Proof/Laws/Memory.lean ====
section
/-! SUPPORT. The laws of RAW: a byte reads back what was written there last, every other byte is left alone, and every
write keeps the canonical form and adds no address but its own. -/

namespace Sys2Proof.Machine

@[simp] theorem Memory.read_nil (a : Nat) : Memory.read [] a = none := rfl

theorem Memory.read_cons (x : Nat) (b : Byte) (m : Memory) (a : Nat) :
    Memory.read ((x, b) :: m) a = if x = a then some b else Memory.read m a := rfl

theorem Memory.read_write (m : Memory) (a a' : Nat) (v : Byte) :
    (m.write a v).read a' = if a = a' then some v else m.read a' := by
  induction m with
  | nil => simp [Memory.write, Memory.read]
  | cons c m ih =>
    obtain ⟨x, b⟩ := c
    simp only [Memory.write]
    split
    · simp [Memory.read]
    · split
      · next h => subst h; simp only [Memory.read]; split <;> rfl
      · next h => simp only [Memory.read, ih]; split <;> split <;> simp_all

@[simp] theorem Memory.read_write_same (m : Memory) (a : Nat) (v : Byte) :
    (m.write a v).read a = some v := by simp [Memory.read_write]

theorem Memory.read_write_other (m : Memory) {a a' : Nat} (v : Byte) (h : a ≠ a') :
    (m.write a v).read a' = m.read a' := by simp [Memory.read_write, h]

/-- An address listed after a write is the written one or was listed before. -/
theorem Memory.mem_write {m : Memory} {a : Nat} {v : Byte} {c : Host.Cell}
    (h : c ∈ m.write a v) : c.1 = a ∨ c ∈ m := by
  induction m with
  | nil => simp_all [Memory.write]
  | cons d m ih =>
    obtain ⟨x, b⟩ := d
    simp only [Memory.write] at h
    split at h
    · simp at h ⊢; rcases h with h | h | h <;> simp_all
    · split at h
      · simp at h ⊢; rcases h with h | h <;> simp_all
      · simp at h ⊢; rcases h with h | h
        · simp_all
        · rcases ih h with h | h <;> simp_all

/-- A memory is well formed exactly when its addresses strictly rise. -/
theorem Memory.wf_iff_pairwise (m : Memory) :
    m.wf = true ↔ m.Pairwise (fun c d => c.1 < d.1) := by
  induction m with
  | nil => simp [Memory.wf]
  | cons x m ih =>
    cases m with
    | nil => simp [Memory.wf]
    | cons y m =>
      simp only [Memory.wf, Bool.and_eq_true, decide_eq_true_eq, ih, List.pairwise_cons]
      constructor
      · rintro ⟨hxy, hy, hm⟩
        refine ⟨?_, hy, hm⟩
        intro c hc
        rcases List.mem_cons.mp hc with rfl | hc
        · exact hxy
        · exact lt_trans hxy (hy c hc)
      · rintro ⟨hx, hy, hm⟩
        exact ⟨hx y (by simp), hy, hm⟩

theorem Memory.wf_write {m : Memory} (a : Nat) (v : Byte) (h : m.wf = true) :
    (m.write a v).wf = true := by
  rw [Memory.wf_iff_pairwise] at h ⊢
  induction m with
  | nil => simp [Memory.write]
  | cons d m ih =>
    obtain ⟨x, b⟩ := d
    rw [List.pairwise_cons] at h
    simp only [Memory.write]
    split
    · next hlt =>
      refine List.pairwise_cons.mpr ⟨?_, List.pairwise_cons.mpr h⟩
      intro c hc
      rcases List.mem_cons.mp hc with rfl | hc
      · exact hlt
      · exact lt_trans hlt (h.1 c hc)
    · split
      · next heq => subst heq; exact List.pairwise_cons.mpr h
      · refine List.pairwise_cons.mpr ⟨?_, ih h.2⟩
        intro c hc
        rcases Memory.mem_write hc with hc | hc
        · simp only; omega
        · exact h.1 c hc

theorem Memory.wf_writeWord {m : Memory} (a : Nat) (v : Word) (h : m.wf = true) :
    (m.writeWord a v).wf = true :=
  Memory.wf_write _ _ (Memory.wf_write _ _ (Memory.wf_write _ _ (Memory.wf_write _ _ h)))

theorem Memory.mem_writeWord {m : Memory} {a : Nat} {v : Word} {c : Host.Cell}
    (h : c ∈ m.writeWord a v) : (a ≤ c.1 ∧ c.1 < a + 4) ∨ c ∈ m := by
  rcases Memory.mem_write h with h | h
  · exact .inl (by omega)
  rcases Memory.mem_write h with h | h
  · exact .inl (by omega)
  rcases Memory.mem_write h with h | h
  · exact .inl (by omega)
  rcases Memory.mem_write h with h | h
  · exact .inl (by omega)
  · exact .inr h

/-- Every byte outside a written word reads as before. -/
theorem Memory.read_writeWord_other (m : Memory) {a a' : Nat} (v : Word)
    (h : a' < a ∨ a + 4 ≤ a') : (m.writeWord a v).read a' = m.read a' := by
  simp only [Memory.writeWord]
  rw [Memory.read_write_other, Memory.read_write_other, Memory.read_write_other,
    Memory.read_write_other] <;> omega

/-- The four bytes of a written word, most significant first. -/
theorem Memory.read_writeWord_bytes (m : Memory) (a : Nat) (v : Word) :
    (m.writeWord a v).read a = some (v.extractLsb' 24 8) ∧
    (m.writeWord a v).read (a + 1) = some (v.extractLsb' 16 8) ∧
    (m.writeWord a v).read (a + 2) = some (v.extractLsb' 8 8) ∧
    (m.writeWord a v).read (a + 3) = some (v.extractLsb' 0 8) := by
  simp [Memory.writeWord, Memory.read_write]

/-- The bytes of a word, put together again, are the word. -/
theorem word_of_bytes (v : Word) :
    v.extractLsb' 24 8 ++ v.extractLsb' 16 8 ++ v.extractLsb' 8 8 ++ v.extractLsb' 0 8 = v := by
  apply BitVec.eq_of_getLsbD_eq
  intro i hi
  simp only [BitVec.getLsbD_append, BitVec.getLsbD_extractLsb']
  by_cases h1 : i < 8
  · simp [h1]
  · by_cases h2 : i - 8 < 8
    · simp [h1, h2, show 8 + (i - 8) = i by omega]
    · by_cases h3 : i - 8 - 8 < 8
      · simp [h1, h2, h3, show 16 + (i - 8 - 8) = i by omega]
      · simp [h1, h2, h3, show 24 + (i - 8 - 8 - 8) = i by omega,
          show i - 8 - 8 - 8 < 8 by omega]

@[simp] theorem State.wordWritten_writeRaw (s : State) (w : Nat) (v : Word) :
    (s.writeRaw w v).wordWritten w = true := by
  simp [State.wordWritten, State.writeRaw, Memory.read_writeWord_bytes]

/-- Every operation on RAW keeps the canonical form, and reset and power-on have it. -/
theorem State.wf_writeRaw {s : State} (w : Nat) (v : Word) (h : s.raw.wf = true) :
    (s.writeRaw w v).raw.wf = true := Memory.wf_writeWord _ _ h

theorem State.wf_reset : State.reset.raw.wf = true := rfl

theorem State.wf_resetBlock {s : State} (h : s.raw.wf = true) : s.resetBlock.raw.wf = true := h

theorem State.wf_powerOn (s : State) : s.powerOn.raw.wf = true := rfl

end Sys2Proof.Machine
end

