-- ==== Sys2Proof/Laws/State.lean ====
section
/-! SUPPORT. What each named update of State leaves in each field, so that no proof unfolds a record update. -/

namespace Sys2Proof.Machine

/-! ### reject -/

@[simp] theorem State.reject_params (s : State) (c : ErrCode) :
    (s.reject c).params = s.params := rfl
@[simp] theorem State.reject_resValid (s : State) (c : ErrCode) :
    (s.reject c).resValid = s.resValid := rfl
@[simp] theorem State.reject_done (s : State) (c : ErrCode) : (s.reject c).done = s.done := rfl
@[simp] theorem State.reject_found (s : State) (c : ErrCode) : (s.reject c).found = s.found := rfl
@[simp] theorem State.reject_sanityOk (s : State) (c : ErrCode) :
    (s.reject c).sanityOk = s.sanityOk := rfl
@[simp] theorem State.reject_err (s : State) (c : ErrCode) : (s.reject c).err = c := rfl
@[simp] theorem State.reject_engine (s : State) (c : ErrCode) :
    (s.reject c).engine = s.engine := rfl
@[simp] theorem State.reject_mode (s : State) (c : ErrCode) : (s.reject c).mode = s.mode := rfl
@[simp] theorem State.reject_scanPos (s : State) (c : ErrCode) :
    (s.reject c).scanPos = s.scanPos := rfl
@[simp] theorem State.reject_irqEn (s : State) (c : ErrCode) : (s.reject c).irqEn = s.irqEn := rfl
@[simp] theorem State.reject_rowLen (s : State) (c : ErrCode) :
    (s.reject c).rowLen = s.rowLen := rfl
@[simp] theorem State.reject_start (s : State) (c : ErrCode) : (s.reject c).start = s.start := rfl
@[simp] theorem State.reject_rowIdx (s : State) (c : ErrCode) :
    (s.reject c).rowIdx = s.rowIdx := rfl
@[simp] theorem State.reject_matchPos (s : State) (c : ErrCode) :
    (s.reject c).matchPos = s.matchPos := rfl
@[simp] theorem State.reject_decCount (s : State) (c : ErrCode) :
    (s.reject c).decCount = s.decCount := rfl
@[simp] theorem State.reject_payload0 (s : State) (c : ErrCode) :
    (s.reject c).payload0 = s.payload0 := rfl
@[simp] theorem State.reject_payload1 (s : State) (c : ErrCode) :
    (s.reject c).payload1 = s.payload1 := rfl
@[simp] theorem State.reject_payload2 (s : State) (c : ErrCode) :
    (s.reject c).payload2 = s.payload2 := rfl
@[simp] theorem State.reject_resId (s : State) (c : ErrCode) : (s.reject c).resId = s.resId := rfl
@[simp] theorem State.reject_resFlags (s : State) (c : ErrCode) :
    (s.reject c).resFlags = s.resFlags := rfl
@[simp] theorem State.reject_resData (s : State) (c : ErrCode) :
    (s.reject c).resData = s.resData := rfl
@[simp] theorem State.reject_resPos (s : State) (c : ErrCode) :
    (s.reject c).resPos = s.resPos := rfl
@[simp] theorem State.reject_readingCount (s : State) (c : ErrCode) :
    (s.reject c).readingCount = s.readingCount := rfl
@[simp] theorem State.reject_sanityFailCount (s : State) (c : ErrCode) :
    (s.reject c).sanityFailCount = s.sanityFailCount := rfl
@[simp] theorem State.reject_raw (s : State) (c : ErrCode) : (s.reject c).raw = s.raw := rfl
@[simp] theorem State.reject_powerOns (s : State) (c : ErrCode) :
    (s.reject c).powerOns = s.powerOns := rfl
@[simp] theorem State.reject_program (s : State) (c : ErrCode) :
    (s.reject c).program = s.program := rfl
@[simp] theorem State.reject_noted (s : State) (c : ErrCode) : (s.reject c).noted = s.noted := rfl
@[simp] theorem State.reject_turns (s : State) (c : ErrCode) : (s.reject c).turns = s.turns := rfl

/-! ### accept -/

@[simp] theorem State.accept_params (s : State) : s.accept.params = s.params := rfl
@[simp] theorem State.accept_resValid (s : State) : s.accept.resValid = s.resValid := rfl
@[simp] theorem State.accept_done (s : State) : s.accept.done = false := rfl
@[simp] theorem State.accept_found (s : State) : s.accept.found = s.found := rfl
@[simp] theorem State.accept_sanityOk (s : State) : s.accept.sanityOk = s.sanityOk := rfl
@[simp] theorem State.accept_err (s : State) : s.accept.err = .none := rfl
@[simp] theorem State.accept_engine (s : State) : s.accept.engine = s.engine := rfl
@[simp] theorem State.accept_mode (s : State) : s.accept.mode = s.mode := rfl
@[simp] theorem State.accept_scanPos (s : State) : s.accept.scanPos = s.scanPos := rfl
@[simp] theorem State.accept_irqEn (s : State) : s.accept.irqEn = s.irqEn := rfl
@[simp] theorem State.accept_rowLen (s : State) : s.accept.rowLen = s.rowLen := rfl
@[simp] theorem State.accept_start (s : State) : s.accept.start = s.start := rfl
@[simp] theorem State.accept_rowIdx (s : State) : s.accept.rowIdx = s.rowIdx := rfl
@[simp] theorem State.accept_matchPos (s : State) : s.accept.matchPos = s.matchPos := rfl
@[simp] theorem State.accept_decCount (s : State) : s.accept.decCount = s.decCount := rfl
@[simp] theorem State.accept_payload0 (s : State) : s.accept.payload0 = s.payload0 := rfl
@[simp] theorem State.accept_payload1 (s : State) : s.accept.payload1 = s.payload1 := rfl
@[simp] theorem State.accept_payload2 (s : State) : s.accept.payload2 = s.payload2 := rfl
@[simp] theorem State.accept_resId (s : State) : s.accept.resId = s.resId := rfl
@[simp] theorem State.accept_resFlags (s : State) : s.accept.resFlags = s.resFlags := rfl
@[simp] theorem State.accept_resData (s : State) : s.accept.resData = s.resData := rfl
@[simp] theorem State.accept_resPos (s : State) : s.accept.resPos = s.resPos := rfl
@[simp] theorem State.accept_readingCount (s : State) :
    s.accept.readingCount = s.readingCount := rfl
@[simp] theorem State.accept_sanityFailCount (s : State) :
    s.accept.sanityFailCount = s.sanityFailCount := rfl
@[simp] theorem State.accept_raw (s : State) : s.accept.raw = s.raw := rfl
@[simp] theorem State.accept_powerOns (s : State) : s.accept.powerOns = s.powerOns := rfl
@[simp] theorem State.accept_program (s : State) : s.accept.program = s.program := rfl
@[simp] theorem State.accept_noted (s : State) : s.accept.noted = s.noted := rfl
@[simp] theorem State.accept_turns (s : State) : s.accept.turns = s.turns := rfl

/-! ### setDone -/

@[simp] theorem State.setDone_params (s : State) : s.setDone.params = s.params := rfl
@[simp] theorem State.setDone_resValid (s : State) : s.setDone.resValid = s.resValid := rfl
@[simp] theorem State.setDone_done (s : State) : s.setDone.done = true := rfl
@[simp] theorem State.setDone_found (s : State) : s.setDone.found = s.found := rfl
@[simp] theorem State.setDone_sanityOk (s : State) : s.setDone.sanityOk = s.sanityOk := rfl
@[simp] theorem State.setDone_err (s : State) : s.setDone.err = s.err := rfl
@[simp] theorem State.setDone_engine (s : State) : s.setDone.engine = s.engine := rfl
@[simp] theorem State.setDone_mode (s : State) : s.setDone.mode = s.mode := rfl
@[simp] theorem State.setDone_scanPos (s : State) : s.setDone.scanPos = s.scanPos := rfl
@[simp] theorem State.setDone_irqEn (s : State) : s.setDone.irqEn = s.irqEn := rfl
@[simp] theorem State.setDone_rowLen (s : State) : s.setDone.rowLen = s.rowLen := rfl
@[simp] theorem State.setDone_start (s : State) : s.setDone.start = s.start := rfl
@[simp] theorem State.setDone_rowIdx (s : State) : s.setDone.rowIdx = s.rowIdx := rfl
@[simp] theorem State.setDone_matchPos (s : State) : s.setDone.matchPos = s.matchPos := rfl
@[simp] theorem State.setDone_decCount (s : State) : s.setDone.decCount = s.decCount := rfl
@[simp] theorem State.setDone_payload0 (s : State) : s.setDone.payload0 = s.payload0 := rfl
@[simp] theorem State.setDone_payload1 (s : State) : s.setDone.payload1 = s.payload1 := rfl
@[simp] theorem State.setDone_payload2 (s : State) : s.setDone.payload2 = s.payload2 := rfl
@[simp] theorem State.setDone_resId (s : State) : s.setDone.resId = s.resId := rfl
@[simp] theorem State.setDone_resFlags (s : State) : s.setDone.resFlags = s.resFlags := rfl
@[simp] theorem State.setDone_resData (s : State) : s.setDone.resData = s.resData := rfl
@[simp] theorem State.setDone_resPos (s : State) : s.setDone.resPos = s.resPos := rfl
@[simp] theorem State.setDone_readingCount (s : State) :
    s.setDone.readingCount = s.readingCount := rfl
@[simp] theorem State.setDone_sanityFailCount (s : State) :
    s.setDone.sanityFailCount = s.sanityFailCount := rfl
@[simp] theorem State.setDone_raw (s : State) : s.setDone.raw = s.raw := rfl
@[simp] theorem State.setDone_powerOns (s : State) : s.setDone.powerOns = s.powerOns := rfl
@[simp] theorem State.setDone_program (s : State) : s.setDone.program = s.program := rfl
@[simp] theorem State.setDone_noted (s : State) : s.setDone.noted = s.noted := rfl
@[simp] theorem State.setDone_turns (s : State) : s.setDone.turns = s.turns := rfl

/-! ### startEngine -/

@[simp] theorem State.startEngine_params (s : State) (m : Mode) (e : EngineState) :
    (s.startEngine m e).params = s.params := rfl
@[simp] theorem State.startEngine_resValid (s : State) (m : Mode) (e : EngineState) :
    (s.startEngine m e).resValid = s.resValid := rfl
@[simp] theorem State.startEngine_done (s : State) (m : Mode) (e : EngineState) :
    (s.startEngine m e).done = false := rfl
@[simp] theorem State.startEngine_found (s : State) (m : Mode) (e : EngineState) :
    (s.startEngine m e).found = s.found := rfl
@[simp] theorem State.startEngine_sanityOk (s : State) (m : Mode) (e : EngineState) :
    (s.startEngine m e).sanityOk = s.sanityOk := rfl
@[simp] theorem State.startEngine_err (s : State) (m : Mode) (e : EngineState) :
    (s.startEngine m e).err = .none := rfl
@[simp] theorem State.startEngine_engine (s : State) (m : Mode) (e : EngineState) :
    (s.startEngine m e).engine = e := rfl
@[simp] theorem State.startEngine_mode (s : State) (m : Mode) (e : EngineState) :
    (s.startEngine m e).mode = m := rfl
@[simp] theorem State.startEngine_scanPos (s : State) (m : Mode) (e : EngineState) :
    (s.startEngine m e).scanPos = s.scanPos := rfl
@[simp] theorem State.startEngine_irqEn (s : State) (m : Mode) (e : EngineState) :
    (s.startEngine m e).irqEn = s.irqEn := rfl
@[simp] theorem State.startEngine_rowLen (s : State) (m : Mode) (e : EngineState) :
    (s.startEngine m e).rowLen = s.rowLen := rfl
@[simp] theorem State.startEngine_start (s : State) (m : Mode) (e : EngineState) :
    (s.startEngine m e).start = s.start := rfl
@[simp] theorem State.startEngine_rowIdx (s : State) (m : Mode) (e : EngineState) :
    (s.startEngine m e).rowIdx = s.rowIdx := rfl
@[simp] theorem State.startEngine_matchPos (s : State) (m : Mode) (e : EngineState) :
    (s.startEngine m e).matchPos = s.matchPos := rfl
@[simp] theorem State.startEngine_decCount (s : State) (m : Mode) (e : EngineState) :
    (s.startEngine m e).decCount = s.decCount := rfl
@[simp] theorem State.startEngine_payload0 (s : State) (m : Mode) (e : EngineState) :
    (s.startEngine m e).payload0 = s.payload0 := rfl
@[simp] theorem State.startEngine_payload1 (s : State) (m : Mode) (e : EngineState) :
    (s.startEngine m e).payload1 = s.payload1 := rfl
@[simp] theorem State.startEngine_payload2 (s : State) (m : Mode) (e : EngineState) :
    (s.startEngine m e).payload2 = s.payload2 := rfl
@[simp] theorem State.startEngine_resId (s : State) (m : Mode) (e : EngineState) :
    (s.startEngine m e).resId = s.resId := rfl
@[simp] theorem State.startEngine_resFlags (s : State) (m : Mode) (e : EngineState) :
    (s.startEngine m e).resFlags = s.resFlags := rfl
@[simp] theorem State.startEngine_resData (s : State) (m : Mode) (e : EngineState) :
    (s.startEngine m e).resData = s.resData := rfl
@[simp] theorem State.startEngine_resPos (s : State) (m : Mode) (e : EngineState) :
    (s.startEngine m e).resPos = s.resPos := rfl
@[simp] theorem State.startEngine_readingCount (s : State) (m : Mode) (e : EngineState) :
    (s.startEngine m e).readingCount = s.readingCount := rfl
@[simp] theorem State.startEngine_sanityFailCount (s : State) (m : Mode) (e : EngineState) :
    (s.startEngine m e).sanityFailCount = s.sanityFailCount := rfl
@[simp] theorem State.startEngine_raw (s : State) (m : Mode) (e : EngineState) :
    (s.startEngine m e).raw = s.raw := rfl
@[simp] theorem State.startEngine_powerOns (s : State) (m : Mode) (e : EngineState) :
    (s.startEngine m e).powerOns = s.powerOns := rfl
@[simp] theorem State.startEngine_program (s : State) (m : Mode) (e : EngineState) :
    (s.startEngine m e).program = s.program := rfl
@[simp] theorem State.startEngine_noted (s : State) (m : Mode) (e : EngineState) :
    (s.startEngine m e).noted = s.noted := rfl
@[simp] theorem State.startEngine_turns (s : State) (m : Mode) (e : EngineState) :
    (s.startEngine m e).turns = s.turns := rfl

/-! ### finish -/

@[simp] theorem State.finish_params (s : State) : s.finish.params = s.params := rfl
@[simp] theorem State.finish_resValid (s : State) : s.finish.resValid = s.resValid := rfl
@[simp] theorem State.finish_done (s : State) : s.finish.done = true := rfl
@[simp] theorem State.finish_found (s : State) : s.finish.found = s.found := rfl
@[simp] theorem State.finish_sanityOk (s : State) : s.finish.sanityOk = s.sanityOk := rfl
@[simp] theorem State.finish_err (s : State) : s.finish.err = s.err := rfl
@[simp] theorem State.finish_engine (s : State) : s.finish.engine = .idle := rfl
@[simp] theorem State.finish_mode (s : State) : s.finish.mode = s.mode := rfl
@[simp] theorem State.finish_scanPos (s : State) : s.finish.scanPos = s.scanPos := rfl
@[simp] theorem State.finish_irqEn (s : State) : s.finish.irqEn = s.irqEn := rfl
@[simp] theorem State.finish_rowLen (s : State) : s.finish.rowLen = s.rowLen := rfl
@[simp] theorem State.finish_start (s : State) : s.finish.start = s.start := rfl
@[simp] theorem State.finish_rowIdx (s : State) : s.finish.rowIdx = s.rowIdx := rfl
@[simp] theorem State.finish_matchPos (s : State) : s.finish.matchPos = s.matchPos := rfl
@[simp] theorem State.finish_decCount (s : State) : s.finish.decCount = s.decCount := rfl
@[simp] theorem State.finish_payload0 (s : State) : s.finish.payload0 = s.payload0 := rfl
@[simp] theorem State.finish_payload1 (s : State) : s.finish.payload1 = s.payload1 := rfl
@[simp] theorem State.finish_payload2 (s : State) : s.finish.payload2 = s.payload2 := rfl
@[simp] theorem State.finish_resId (s : State) : s.finish.resId = s.resId := rfl
@[simp] theorem State.finish_resFlags (s : State) : s.finish.resFlags = s.resFlags := rfl
@[simp] theorem State.finish_resData (s : State) : s.finish.resData = s.resData := rfl
@[simp] theorem State.finish_resPos (s : State) : s.finish.resPos = s.resPos := rfl
@[simp] theorem State.finish_readingCount (s : State) :
    s.finish.readingCount = s.readingCount := rfl
@[simp] theorem State.finish_sanityFailCount (s : State) :
    s.finish.sanityFailCount = s.sanityFailCount := rfl
@[simp] theorem State.finish_raw (s : State) : s.finish.raw = s.raw := rfl
@[simp] theorem State.finish_powerOns (s : State) : s.finish.powerOns = s.powerOns := rfl
@[simp] theorem State.finish_program (s : State) : s.finish.program = s.program := rfl
@[simp] theorem State.finish_noted (s : State) : s.finish.noted = s.noted := rfl
@[simp] theorem State.finish_turns (s : State) : s.finish.turns = s.turns := rfl

/-! ### writeRaw -/

@[simp] theorem State.writeRaw_params (s : State) (w : Nat) (v : Word) :
    (s.writeRaw w v).params = s.params := rfl
@[simp] theorem State.writeRaw_resValid (s : State) (w : Nat) (v : Word) :
    (s.writeRaw w v).resValid = s.resValid := rfl
@[simp] theorem State.writeRaw_done (s : State) (w : Nat) (v : Word) :
    (s.writeRaw w v).done = s.done := rfl
@[simp] theorem State.writeRaw_found (s : State) (w : Nat) (v : Word) :
    (s.writeRaw w v).found = s.found := rfl
@[simp] theorem State.writeRaw_sanityOk (s : State) (w : Nat) (v : Word) :
    (s.writeRaw w v).sanityOk = s.sanityOk := rfl
@[simp] theorem State.writeRaw_err (s : State) (w : Nat) (v : Word) :
    (s.writeRaw w v).err = s.err := rfl
@[simp] theorem State.writeRaw_engine (s : State) (w : Nat) (v : Word) :
    (s.writeRaw w v).engine = s.engine := rfl
@[simp] theorem State.writeRaw_mode (s : State) (w : Nat) (v : Word) :
    (s.writeRaw w v).mode = s.mode := rfl
@[simp] theorem State.writeRaw_scanPos (s : State) (w : Nat) (v : Word) :
    (s.writeRaw w v).scanPos = s.scanPos := rfl
@[simp] theorem State.writeRaw_irqEn (s : State) (w : Nat) (v : Word) :
    (s.writeRaw w v).irqEn = s.irqEn := rfl
@[simp] theorem State.writeRaw_rowLen (s : State) (w : Nat) (v : Word) :
    (s.writeRaw w v).rowLen = s.rowLen := rfl
@[simp] theorem State.writeRaw_start (s : State) (w : Nat) (v : Word) :
    (s.writeRaw w v).start = s.start := rfl
@[simp] theorem State.writeRaw_rowIdx (s : State) (w : Nat) (v : Word) :
    (s.writeRaw w v).rowIdx = s.rowIdx := rfl
@[simp] theorem State.writeRaw_matchPos (s : State) (w : Nat) (v : Word) :
    (s.writeRaw w v).matchPos = s.matchPos := rfl
@[simp] theorem State.writeRaw_decCount (s : State) (w : Nat) (v : Word) :
    (s.writeRaw w v).decCount = s.decCount := rfl
@[simp] theorem State.writeRaw_payload0 (s : State) (w : Nat) (v : Word) :
    (s.writeRaw w v).payload0 = s.payload0 := rfl
@[simp] theorem State.writeRaw_payload1 (s : State) (w : Nat) (v : Word) :
    (s.writeRaw w v).payload1 = s.payload1 := rfl
@[simp] theorem State.writeRaw_payload2 (s : State) (w : Nat) (v : Word) :
    (s.writeRaw w v).payload2 = s.payload2 := rfl
@[simp] theorem State.writeRaw_resId (s : State) (w : Nat) (v : Word) :
    (s.writeRaw w v).resId = s.resId := rfl
@[simp] theorem State.writeRaw_resFlags (s : State) (w : Nat) (v : Word) :
    (s.writeRaw w v).resFlags = s.resFlags := rfl
@[simp] theorem State.writeRaw_resData (s : State) (w : Nat) (v : Word) :
    (s.writeRaw w v).resData = s.resData := rfl
@[simp] theorem State.writeRaw_resPos (s : State) (w : Nat) (v : Word) :
    (s.writeRaw w v).resPos = s.resPos := rfl
@[simp] theorem State.writeRaw_readingCount (s : State) (w : Nat) (v : Word) :
    (s.writeRaw w v).readingCount = s.readingCount := rfl
@[simp] theorem State.writeRaw_sanityFailCount (s : State) (w : Nat) (v : Word) :
    (s.writeRaw w v).sanityFailCount = s.sanityFailCount := rfl
@[simp] theorem State.writeRaw_raw (s : State) (w : Nat) (v : Word) :
    (s.writeRaw w v).raw = s.raw.writeWord (rawAddr w) v := rfl
@[simp] theorem State.writeRaw_powerOns (s : State) (w : Nat) (v : Word) :
    (s.writeRaw w v).powerOns = s.powerOns := rfl
@[simp] theorem State.writeRaw_program (s : State) (w : Nat) (v : Word) :
    (s.writeRaw w v).program = s.program := rfl
@[simp] theorem State.writeRaw_noted (s : State) (w : Nat) (v : Word) :
    (s.writeRaw w v).noted = s.noted := rfl
@[simp] theorem State.writeRaw_turns (s : State) (w : Nat) (v : Word) :
    (s.writeRaw w v).turns = s.turns := rfl

/-! ### writeMatch -/

@[simp] theorem State.writeMatch_params (s : State) (m : Nat) :
    (s.writeMatch m).params = s.params := rfl
@[simp] theorem State.writeMatch_resValid (s : State) (m : Nat) :
    (s.writeMatch m).resValid = s.resValid := rfl
@[simp] theorem State.writeMatch_done (s : State) (m : Nat) : (s.writeMatch m).done = s.done := rfl
@[simp] theorem State.writeMatch_found (s : State) (m : Nat) :
    (s.writeMatch m).found = decide (m < s.len) := rfl
@[simp] theorem State.writeMatch_sanityOk (s : State) (m : Nat) :
    (s.writeMatch m).sanityOk = s.sanityOk := rfl
@[simp] theorem State.writeMatch_err (s : State) (m : Nat) : (s.writeMatch m).err = s.err := rfl
@[simp] theorem State.writeMatch_engine (s : State) (m : Nat) :
    (s.writeMatch m).engine = s.engine := rfl
@[simp] theorem State.writeMatch_mode (s : State) (m : Nat) : (s.writeMatch m).mode = s.mode := rfl
@[simp] theorem State.writeMatch_scanPos (s : State) (m : Nat) :
    (s.writeMatch m).scanPos = s.scanPos := rfl
@[simp] theorem State.writeMatch_irqEn (s : State) (m : Nat) :
    (s.writeMatch m).irqEn = s.irqEn := rfl
@[simp] theorem State.writeMatch_rowLen (s : State) (m : Nat) :
    (s.writeMatch m).rowLen = s.rowLen := rfl
@[simp] theorem State.writeMatch_start (s : State) (m : Nat) :
    (s.writeMatch m).start = s.start := rfl
@[simp] theorem State.writeMatch_rowIdx (s : State) (m : Nat) :
    (s.writeMatch m).rowIdx = s.rowIdx := rfl
@[simp] theorem State.writeMatch_matchPos (s : State) (m : Nat) :
    (s.writeMatch m).matchPos = BitVec.ofNat 16 m := rfl
@[simp] theorem State.writeMatch_decCount (s : State) (m : Nat) :
    (s.writeMatch m).decCount = s.decCount := rfl
@[simp] theorem State.writeMatch_payload0 (s : State) (m : Nat) :
    (s.writeMatch m).payload0 = s.payload0 := rfl
@[simp] theorem State.writeMatch_payload1 (s : State) (m : Nat) :
    (s.writeMatch m).payload1 = s.payload1 := rfl
@[simp] theorem State.writeMatch_payload2 (s : State) (m : Nat) :
    (s.writeMatch m).payload2 = s.payload2 := rfl
@[simp] theorem State.writeMatch_resId (s : State) (m : Nat) :
    (s.writeMatch m).resId = s.resId := rfl
@[simp] theorem State.writeMatch_resFlags (s : State) (m : Nat) :
    (s.writeMatch m).resFlags = s.resFlags := rfl
@[simp] theorem State.writeMatch_resData (s : State) (m : Nat) :
    (s.writeMatch m).resData = s.resData := rfl
@[simp] theorem State.writeMatch_resPos (s : State) (m : Nat) :
    (s.writeMatch m).resPos = s.resPos := rfl
@[simp] theorem State.writeMatch_readingCount (s : State) (m : Nat) :
    (s.writeMatch m).readingCount = s.readingCount := rfl
@[simp] theorem State.writeMatch_sanityFailCount (s : State) (m : Nat) :
    (s.writeMatch m).sanityFailCount = s.sanityFailCount := rfl
@[simp] theorem State.writeMatch_raw (s : State) (m : Nat) : (s.writeMatch m).raw = s.raw := rfl
@[simp] theorem State.writeMatch_powerOns (s : State) (m : Nat) :
    (s.writeMatch m).powerOns = s.powerOns := rfl
@[simp] theorem State.writeMatch_program (s : State) (m : Nat) :
    (s.writeMatch m).program = s.program := rfl
@[simp] theorem State.writeMatch_noted (s : State) (m : Nat) :
    (s.writeMatch m).noted = s.noted := rfl
@[simp] theorem State.writeMatch_turns (s : State) (m : Nat) :
    (s.writeMatch m).turns = s.turns := rfl

/-! ### writeDecode -/

@[simp] theorem State.writeDecode_params (s : State) (d : List Bool) :
    (s.writeDecode d).params = s.params := rfl
@[simp] theorem State.writeDecode_resValid (s : State) (d : List Bool) :
    (s.writeDecode d).resValid = s.resValid := rfl
@[simp] theorem State.writeDecode_done (s : State) (d : List Bool) :
    (s.writeDecode d).done = s.done := rfl
@[simp] theorem State.writeDecode_found (s : State) (d : List Bool) :
    (s.writeDecode d).found = s.found := rfl
@[simp] theorem State.writeDecode_sanityOk (s : State) (d : List Bool) :
    (s.writeDecode d).sanityOk = decide (d.length = Config.nDec) := rfl
@[simp] theorem State.writeDecode_err (s : State) (d : List Bool) :
    (s.writeDecode d).err = s.err := rfl
@[simp] theorem State.writeDecode_engine (s : State) (d : List Bool) :
    (s.writeDecode d).engine = s.engine := rfl
@[simp] theorem State.writeDecode_mode (s : State) (d : List Bool) :
    (s.writeDecode d).mode = s.mode := rfl
@[simp] theorem State.writeDecode_scanPos (s : State) (d : List Bool) :
    (s.writeDecode d).scanPos = s.scanPos := rfl
@[simp] theorem State.writeDecode_irqEn (s : State) (d : List Bool) :
    (s.writeDecode d).irqEn = s.irqEn := rfl
@[simp] theorem State.writeDecode_rowLen (s : State) (d : List Bool) :
    (s.writeDecode d).rowLen = s.rowLen := rfl
@[simp] theorem State.writeDecode_start (s : State) (d : List Bool) :
    (s.writeDecode d).start = s.start := rfl
@[simp] theorem State.writeDecode_rowIdx (s : State) (d : List Bool) :
    (s.writeDecode d).rowIdx = s.rowIdx := rfl
@[simp] theorem State.writeDecode_matchPos (s : State) (d : List Bool) :
    (s.writeDecode d).matchPos = s.matchPos := rfl
@[simp] theorem State.writeDecode_decCount (s : State) (d : List Bool) :
    (s.writeDecode d).decCount = BitVec.ofNat 7 d.length := rfl
@[simp] theorem State.writeDecode_payload0 (s : State) (d : List Bool) : (s.writeDecode d).payload0 =
    payloadByteOf d 0 ++ payloadByteOf d 1 ++ payloadByteOf d 2 ++ payloadByteOf d 3 := rfl
@[simp] theorem State.writeDecode_payload1 (s : State) (d : List Bool) : (s.writeDecode d).payload1 =
    payloadByteOf d 4 ++ payloadByteOf d 5 ++ payloadByteOf d 6 ++ payloadByteOf d 7 := rfl
@[simp] theorem State.writeDecode_payload2 (s : State) (d : List Bool) :
    (s.writeDecode d).payload2 = payloadByteOf d 8 ++ payloadByteOf d 9 := rfl
@[simp] theorem State.writeDecode_resId (s : State) (d : List Bool) :
    (s.writeDecode d).resId = s.resId := rfl
@[simp] theorem State.writeDecode_resFlags (s : State) (d : List Bool) :
    (s.writeDecode d).resFlags = s.resFlags := rfl
@[simp] theorem State.writeDecode_resData (s : State) (d : List Bool) :
    (s.writeDecode d).resData = s.resData := rfl
@[simp] theorem State.writeDecode_resPos (s : State) (d : List Bool) :
    (s.writeDecode d).resPos = s.resPos := rfl
@[simp] theorem State.writeDecode_readingCount (s : State) (d : List Bool) :
    (s.writeDecode d).readingCount = s.readingCount := rfl
@[simp] theorem State.writeDecode_sanityFailCount (s : State) (d : List Bool) : (s.writeDecode d).sanityFailCount =
    if d.length = Config.nDec then s.sanityFailCount else s.sanityFailCount + 1#32 := rfl
@[simp] theorem State.writeDecode_raw (s : State) (d : List Bool) :
    (s.writeDecode d).raw = s.raw := rfl
@[simp] theorem State.writeDecode_powerOns (s : State) (d : List Bool) :
    (s.writeDecode d).powerOns = s.powerOns := rfl
@[simp] theorem State.writeDecode_program (s : State) (d : List Bool) :
    (s.writeDecode d).program = s.program := rfl
@[simp] theorem State.writeDecode_noted (s : State) (d : List Bool) :
    (s.writeDecode d).noted = s.noted := rfl
@[simp] theorem State.writeDecode_turns (s : State) (d : List Bool) :
    (s.writeDecode d).turns = s.turns := rfl

/-! ### emit -/

@[simp] theorem State.emit_params (s : State) : s.emit.params = s.params := rfl
@[simp] theorem State.emit_resValid (s : State) : s.emit.resValid = true := rfl
@[simp] theorem State.emit_done (s : State) : s.emit.done = s.done := rfl
@[simp] theorem State.emit_found (s : State) : s.emit.found = s.found := rfl
@[simp] theorem State.emit_sanityOk (s : State) : s.emit.sanityOk = s.sanityOk := rfl
@[simp] theorem State.emit_err (s : State) : s.emit.err = s.err := rfl
@[simp] theorem State.emit_engine (s : State) : s.emit.engine = s.engine := rfl
@[simp] theorem State.emit_mode (s : State) : s.emit.mode = s.mode := rfl
@[simp] theorem State.emit_scanPos (s : State) : s.emit.scanPos = s.scanPos := rfl
@[simp] theorem State.emit_irqEn (s : State) : s.emit.irqEn = s.irqEn := rfl
@[simp] theorem State.emit_rowLen (s : State) : s.emit.rowLen = s.rowLen := rfl
@[simp] theorem State.emit_start (s : State) : s.emit.start = s.start := rfl
@[simp] theorem State.emit_rowIdx (s : State) : s.emit.rowIdx = s.rowIdx := rfl
@[simp] theorem State.emit_matchPos (s : State) : s.emit.matchPos = s.matchPos := rfl
@[simp] theorem State.emit_decCount (s : State) : s.emit.decCount = s.decCount := rfl
@[simp] theorem State.emit_payload0 (s : State) : s.emit.payload0 = s.payload0 := rfl
@[simp] theorem State.emit_payload1 (s : State) : s.emit.payload1 = s.payload1 := rfl
@[simp] theorem State.emit_payload2 (s : State) : s.emit.payload2 = s.payload2 := rfl
@[simp] theorem State.emit_resId (s : State) :
    s.emit.resId = s.payloadByte 0 ++ s.payloadByte 1 ++ s.payloadByte 2 ++ s.payloadByte 3 := rfl
@[simp] theorem State.emit_resFlags (s : State) :
    s.emit.resFlags = integrityUnverified ++ s.payloadByte 4 := rfl
@[simp] theorem State.emit_resData (s : State) :
    s.emit.resData = s.payloadByte 8 ++ s.payloadByte 7 ++ s.payloadByte 6 ++ s.payloadByte 5 := rfl
@[simp] theorem State.emit_resPos (s : State) : s.emit.resPos = s.rowIdx ++ s.matchPos := rfl
@[simp] theorem State.emit_readingCount (s : State) :
    s.emit.readingCount = s.readingCount + 1#32 := rfl
@[simp] theorem State.emit_sanityFailCount (s : State) :
    s.emit.sanityFailCount = s.sanityFailCount := rfl
@[simp] theorem State.emit_raw (s : State) : s.emit.raw = s.raw := rfl
@[simp] theorem State.emit_powerOns (s : State) : s.emit.powerOns = s.powerOns := rfl
@[simp] theorem State.emit_program (s : State) : s.emit.program = s.program := rfl
@[simp] theorem State.emit_noted (s : State) : s.emit.noted = s.noted := rfl
@[simp] theorem State.emit_turns (s : State) : s.emit.turns = s.turns := rfl

/-! ### resumeScan -/

@[simp] theorem State.resumeScan_params (s : State) : s.resumeScan.params = s.params := rfl
@[simp] theorem State.resumeScan_resValid (s : State) : s.resumeScan.resValid = s.resValid := rfl
@[simp] theorem State.resumeScan_done (s : State) : s.resumeScan.done = s.done := rfl
@[simp] theorem State.resumeScan_found (s : State) : s.resumeScan.found = s.found := rfl
@[simp] theorem State.resumeScan_sanityOk (s : State) : s.resumeScan.sanityOk = s.sanityOk := rfl
@[simp] theorem State.resumeScan_err (s : State) : s.resumeScan.err = s.err := rfl
@[simp] theorem State.resumeScan_engine (s : State) : s.resumeScan.engine = .find := rfl
@[simp] theorem State.resumeScan_mode (s : State) : s.resumeScan.mode = s.mode := rfl
@[simp] theorem State.resumeScan_scanPos (s : State) : s.resumeScan.scanPos = s.resumeOfs := rfl
@[simp] theorem State.resumeScan_irqEn (s : State) : s.resumeScan.irqEn = s.irqEn := rfl
@[simp] theorem State.resumeScan_rowLen (s : State) : s.resumeScan.rowLen = s.rowLen := rfl
@[simp] theorem State.resumeScan_start (s : State) : s.resumeScan.start = s.start := rfl
@[simp] theorem State.resumeScan_rowIdx (s : State) : s.resumeScan.rowIdx = s.rowIdx := rfl
@[simp] theorem State.resumeScan_matchPos (s : State) : s.resumeScan.matchPos = s.matchPos := rfl
@[simp] theorem State.resumeScan_decCount (s : State) : s.resumeScan.decCount = s.decCount := rfl
@[simp] theorem State.resumeScan_payload0 (s : State) : s.resumeScan.payload0 = s.payload0 := rfl
@[simp] theorem State.resumeScan_payload1 (s : State) : s.resumeScan.payload1 = s.payload1 := rfl
@[simp] theorem State.resumeScan_payload2 (s : State) : s.resumeScan.payload2 = s.payload2 := rfl
@[simp] theorem State.resumeScan_resId (s : State) : s.resumeScan.resId = s.resId := rfl
@[simp] theorem State.resumeScan_resFlags (s : State) : s.resumeScan.resFlags = s.resFlags := rfl
@[simp] theorem State.resumeScan_resData (s : State) : s.resumeScan.resData = s.resData := rfl
@[simp] theorem State.resumeScan_resPos (s : State) : s.resumeScan.resPos = s.resPos := rfl
@[simp] theorem State.resumeScan_readingCount (s : State) :
    s.resumeScan.readingCount = s.readingCount := rfl
@[simp] theorem State.resumeScan_sanityFailCount (s : State) :
    s.resumeScan.sanityFailCount = s.sanityFailCount := rfl
@[simp] theorem State.resumeScan_raw (s : State) : s.resumeScan.raw = s.raw := rfl
@[simp] theorem State.resumeScan_powerOns (s : State) : s.resumeScan.powerOns = s.powerOns := rfl
@[simp] theorem State.resumeScan_program (s : State) : s.resumeScan.program = s.program := rfl
@[simp] theorem State.resumeScan_noted (s : State) : s.resumeScan.noted = s.noted := rfl
@[simp] theorem State.resumeScan_turns (s : State) : s.resumeScan.turns = s.turns := rfl

/-! ### clearCounts -/

@[simp] theorem State.clearCounts_params (s : State) : s.clearCounts.params = s.params := rfl
@[simp] theorem State.clearCounts_resValid (s : State) : s.clearCounts.resValid = s.resValid := rfl
@[simp] theorem State.clearCounts_done (s : State) : s.clearCounts.done = s.done := rfl
@[simp] theorem State.clearCounts_found (s : State) : s.clearCounts.found = s.found := rfl
@[simp] theorem State.clearCounts_sanityOk (s : State) : s.clearCounts.sanityOk = s.sanityOk := rfl
@[simp] theorem State.clearCounts_err (s : State) : s.clearCounts.err = s.err := rfl
@[simp] theorem State.clearCounts_engine (s : State) : s.clearCounts.engine = s.engine := rfl
@[simp] theorem State.clearCounts_mode (s : State) : s.clearCounts.mode = s.mode := rfl
@[simp] theorem State.clearCounts_scanPos (s : State) : s.clearCounts.scanPos = s.scanPos := rfl
@[simp] theorem State.clearCounts_irqEn (s : State) : s.clearCounts.irqEn = s.irqEn := rfl
@[simp] theorem State.clearCounts_rowLen (s : State) : s.clearCounts.rowLen = s.rowLen := rfl
@[simp] theorem State.clearCounts_start (s : State) : s.clearCounts.start = s.start := rfl
@[simp] theorem State.clearCounts_rowIdx (s : State) : s.clearCounts.rowIdx = s.rowIdx := rfl
@[simp] theorem State.clearCounts_matchPos (s : State) : s.clearCounts.matchPos = s.matchPos := rfl
@[simp] theorem State.clearCounts_decCount (s : State) : s.clearCounts.decCount = s.decCount := rfl
@[simp] theorem State.clearCounts_payload0 (s : State) : s.clearCounts.payload0 = s.payload0 := rfl
@[simp] theorem State.clearCounts_payload1 (s : State) : s.clearCounts.payload1 = s.payload1 := rfl
@[simp] theorem State.clearCounts_payload2 (s : State) : s.clearCounts.payload2 = s.payload2 := rfl
@[simp] theorem State.clearCounts_resId (s : State) : s.clearCounts.resId = s.resId := rfl
@[simp] theorem State.clearCounts_resFlags (s : State) : s.clearCounts.resFlags = s.resFlags := rfl
@[simp] theorem State.clearCounts_resData (s : State) : s.clearCounts.resData = s.resData := rfl
@[simp] theorem State.clearCounts_resPos (s : State) : s.clearCounts.resPos = s.resPos := rfl
@[simp] theorem State.clearCounts_readingCount (s : State) :
    s.clearCounts.readingCount = 0#32 := rfl
@[simp] theorem State.clearCounts_sanityFailCount (s : State) :
    s.clearCounts.sanityFailCount = 0#32 := rfl
@[simp] theorem State.clearCounts_raw (s : State) : s.clearCounts.raw = s.raw := rfl
@[simp] theorem State.clearCounts_powerOns (s : State) : s.clearCounts.powerOns = s.powerOns := rfl
@[simp] theorem State.clearCounts_program (s : State) : s.clearCounts.program = s.program := rfl
@[simp] theorem State.clearCounts_noted (s : State) : s.clearCounts.noted = s.noted := rfl
@[simp] theorem State.clearCounts_turns (s : State) : s.clearCounts.turns = s.turns := rfl

/-! ### pop -/

@[simp] theorem State.pop_params (s : State) : s.pop.params = s.params := rfl
@[simp] theorem State.pop_resValid (s : State) : s.pop.resValid = false := rfl
@[simp] theorem State.pop_done (s : State) : s.pop.done = s.done := rfl
@[simp] theorem State.pop_found (s : State) : s.pop.found = s.found := rfl
@[simp] theorem State.pop_sanityOk (s : State) : s.pop.sanityOk = s.sanityOk := rfl
@[simp] theorem State.pop_err (s : State) : s.pop.err = s.err := rfl
@[simp] theorem State.pop_engine (s : State) : s.pop.engine = s.engine := rfl
@[simp] theorem State.pop_mode (s : State) : s.pop.mode = s.mode := rfl
@[simp] theorem State.pop_scanPos (s : State) : s.pop.scanPos = s.scanPos := rfl
@[simp] theorem State.pop_irqEn (s : State) : s.pop.irqEn = s.irqEn := rfl
@[simp] theorem State.pop_rowLen (s : State) : s.pop.rowLen = s.rowLen := rfl
@[simp] theorem State.pop_start (s : State) : s.pop.start = s.start := rfl
@[simp] theorem State.pop_rowIdx (s : State) : s.pop.rowIdx = s.rowIdx := rfl
@[simp] theorem State.pop_matchPos (s : State) : s.pop.matchPos = s.matchPos := rfl
@[simp] theorem State.pop_decCount (s : State) : s.pop.decCount = s.decCount := rfl
@[simp] theorem State.pop_payload0 (s : State) : s.pop.payload0 = s.payload0 := rfl
@[simp] theorem State.pop_payload1 (s : State) : s.pop.payload1 = s.payload1 := rfl
@[simp] theorem State.pop_payload2 (s : State) : s.pop.payload2 = s.payload2 := rfl
@[simp] theorem State.pop_resId (s : State) : s.pop.resId = s.resId := rfl
@[simp] theorem State.pop_resFlags (s : State) : s.pop.resFlags = s.resFlags := rfl
@[simp] theorem State.pop_resData (s : State) : s.pop.resData = s.resData := rfl
@[simp] theorem State.pop_resPos (s : State) : s.pop.resPos = s.resPos := rfl
@[simp] theorem State.pop_readingCount (s : State) : s.pop.readingCount = s.readingCount := rfl
@[simp] theorem State.pop_sanityFailCount (s : State) :
    s.pop.sanityFailCount = s.sanityFailCount := rfl
@[simp] theorem State.pop_raw (s : State) : s.pop.raw = s.raw := rfl
@[simp] theorem State.pop_powerOns (s : State) : s.pop.powerOns = s.powerOns := rfl
@[simp] theorem State.pop_program (s : State) : s.pop.program = s.program := rfl
@[simp] theorem State.pop_noted (s : State) : s.pop.noted = s.noted := rfl
@[simp] theorem State.pop_turns (s : State) : s.pop.turns = s.turns := rfl

/-! ### note -/

@[simp] theorem State.note_params (s : State) (v : Word) : (s.note v).params = s.params := rfl
@[simp] theorem State.note_resValid (s : State) (v : Word) : (s.note v).resValid = s.resValid := rfl
@[simp] theorem State.note_done (s : State) (v : Word) : (s.note v).done = s.done := rfl
@[simp] theorem State.note_found (s : State) (v : Word) : (s.note v).found = s.found := rfl
@[simp] theorem State.note_sanityOk (s : State) (v : Word) : (s.note v).sanityOk = s.sanityOk := rfl
@[simp] theorem State.note_err (s : State) (v : Word) : (s.note v).err = s.err := rfl
@[simp] theorem State.note_engine (s : State) (v : Word) : (s.note v).engine = s.engine := rfl
@[simp] theorem State.note_mode (s : State) (v : Word) : (s.note v).mode = s.mode := rfl
@[simp] theorem State.note_scanPos (s : State) (v : Word) : (s.note v).scanPos = s.scanPos := rfl
@[simp] theorem State.note_irqEn (s : State) (v : Word) : (s.note v).irqEn = s.irqEn := rfl
@[simp] theorem State.note_rowLen (s : State) (v : Word) : (s.note v).rowLen = s.rowLen := rfl
@[simp] theorem State.note_start (s : State) (v : Word) : (s.note v).start = s.start := rfl
@[simp] theorem State.note_rowIdx (s : State) (v : Word) : (s.note v).rowIdx = s.rowIdx := rfl
@[simp] theorem State.note_matchPos (s : State) (v : Word) : (s.note v).matchPos = s.matchPos := rfl
@[simp] theorem State.note_decCount (s : State) (v : Word) : (s.note v).decCount = s.decCount := rfl
@[simp] theorem State.note_payload0 (s : State) (v : Word) : (s.note v).payload0 = s.payload0 := rfl
@[simp] theorem State.note_payload1 (s : State) (v : Word) : (s.note v).payload1 = s.payload1 := rfl
@[simp] theorem State.note_payload2 (s : State) (v : Word) : (s.note v).payload2 = s.payload2 := rfl
@[simp] theorem State.note_resId (s : State) (v : Word) : (s.note v).resId = s.resId := rfl
@[simp] theorem State.note_resFlags (s : State) (v : Word) : (s.note v).resFlags = s.resFlags := rfl
@[simp] theorem State.note_resData (s : State) (v : Word) : (s.note v).resData = s.resData := rfl
@[simp] theorem State.note_resPos (s : State) (v : Word) : (s.note v).resPos = s.resPos := rfl
@[simp] theorem State.note_readingCount (s : State) (v : Word) :
    (s.note v).readingCount = s.readingCount := rfl
@[simp] theorem State.note_sanityFailCount (s : State) (v : Word) :
    (s.note v).sanityFailCount = s.sanityFailCount := rfl
@[simp] theorem State.note_raw (s : State) (v : Word) : (s.note v).raw = s.raw := rfl
@[simp] theorem State.note_powerOns (s : State) (v : Word) : (s.note v).powerOns = s.powerOns := rfl
@[simp] theorem State.note_program (s : State) (v : Word) : (s.note v).program = s.program := rfl
@[simp] theorem State.note_noted (s : State) (v : Word) : (s.note v).noted = s.noted ++ [v] := rfl
@[simp] theorem State.note_turns (s : State) (v : Word) : (s.note v).turns = s.turns := rfl

/-! ### dropTurn -/

@[simp] theorem State.dropTurn_params (s : State) : s.dropTurn.params = s.params := rfl
@[simp] theorem State.dropTurn_resValid (s : State) : s.dropTurn.resValid = s.resValid := rfl
@[simp] theorem State.dropTurn_done (s : State) : s.dropTurn.done = s.done := rfl
@[simp] theorem State.dropTurn_found (s : State) : s.dropTurn.found = s.found := rfl
@[simp] theorem State.dropTurn_sanityOk (s : State) : s.dropTurn.sanityOk = s.sanityOk := rfl
@[simp] theorem State.dropTurn_err (s : State) : s.dropTurn.err = s.err := rfl
@[simp] theorem State.dropTurn_engine (s : State) : s.dropTurn.engine = s.engine := rfl
@[simp] theorem State.dropTurn_mode (s : State) : s.dropTurn.mode = s.mode := rfl
@[simp] theorem State.dropTurn_scanPos (s : State) : s.dropTurn.scanPos = s.scanPos := rfl
@[simp] theorem State.dropTurn_irqEn (s : State) : s.dropTurn.irqEn = s.irqEn := rfl
@[simp] theorem State.dropTurn_rowLen (s : State) : s.dropTurn.rowLen = s.rowLen := rfl
@[simp] theorem State.dropTurn_start (s : State) : s.dropTurn.start = s.start := rfl
@[simp] theorem State.dropTurn_rowIdx (s : State) : s.dropTurn.rowIdx = s.rowIdx := rfl
@[simp] theorem State.dropTurn_matchPos (s : State) : s.dropTurn.matchPos = s.matchPos := rfl
@[simp] theorem State.dropTurn_decCount (s : State) : s.dropTurn.decCount = s.decCount := rfl
@[simp] theorem State.dropTurn_payload0 (s : State) : s.dropTurn.payload0 = s.payload0 := rfl
@[simp] theorem State.dropTurn_payload1 (s : State) : s.dropTurn.payload1 = s.payload1 := rfl
@[simp] theorem State.dropTurn_payload2 (s : State) : s.dropTurn.payload2 = s.payload2 := rfl
@[simp] theorem State.dropTurn_resId (s : State) : s.dropTurn.resId = s.resId := rfl
@[simp] theorem State.dropTurn_resFlags (s : State) : s.dropTurn.resFlags = s.resFlags := rfl
@[simp] theorem State.dropTurn_resData (s : State) : s.dropTurn.resData = s.resData := rfl
@[simp] theorem State.dropTurn_resPos (s : State) : s.dropTurn.resPos = s.resPos := rfl
@[simp] theorem State.dropTurn_readingCount (s : State) :
    s.dropTurn.readingCount = s.readingCount := rfl
@[simp] theorem State.dropTurn_sanityFailCount (s : State) :
    s.dropTurn.sanityFailCount = s.sanityFailCount := rfl
@[simp] theorem State.dropTurn_raw (s : State) : s.dropTurn.raw = s.raw := rfl
@[simp] theorem State.dropTurn_powerOns (s : State) : s.dropTurn.powerOns = s.powerOns := rfl
@[simp] theorem State.dropTurn_program (s : State) : s.dropTurn.program = s.program := rfl
@[simp] theorem State.dropTurn_noted (s : State) : s.dropTurn.noted = s.noted := rfl
@[simp] theorem State.dropTurn_turns (s : State) : s.dropTurn.turns = s.turns.tail := rfl

/-! ### resetBlock -/

@[simp] theorem State.resetBlock_params (s : State) : s.resetBlock.params = s.params := rfl
@[simp] theorem State.resetBlock_resValid (s : State) : s.resetBlock.resValid = State.reset.resValid := rfl
@[simp] theorem State.resetBlock_done (s : State) : s.resetBlock.done = State.reset.done := rfl
@[simp] theorem State.resetBlock_found (s : State) : s.resetBlock.found = State.reset.found := rfl
@[simp] theorem State.resetBlock_sanityOk (s : State) : s.resetBlock.sanityOk = State.reset.sanityOk := rfl
@[simp] theorem State.resetBlock_err (s : State) : s.resetBlock.err = State.reset.err := rfl
@[simp] theorem State.resetBlock_engine (s : State) : s.resetBlock.engine = State.reset.engine := rfl
@[simp] theorem State.resetBlock_mode (s : State) : s.resetBlock.mode = State.reset.mode := rfl
@[simp] theorem State.resetBlock_scanPos (s : State) : s.resetBlock.scanPos = State.reset.scanPos := rfl
@[simp] theorem State.resetBlock_irqEn (s : State) : s.resetBlock.irqEn = State.reset.irqEn := rfl
@[simp] theorem State.resetBlock_rowLen (s : State) : s.resetBlock.rowLen = State.reset.rowLen := rfl
@[simp] theorem State.resetBlock_start (s : State) : s.resetBlock.start = State.reset.start := rfl
@[simp] theorem State.resetBlock_rowIdx (s : State) : s.resetBlock.rowIdx = State.reset.rowIdx := rfl
@[simp] theorem State.resetBlock_matchPos (s : State) : s.resetBlock.matchPos = State.reset.matchPos := rfl
@[simp] theorem State.resetBlock_decCount (s : State) : s.resetBlock.decCount = State.reset.decCount := rfl
@[simp] theorem State.resetBlock_payload0 (s : State) : s.resetBlock.payload0 = State.reset.payload0 := rfl
@[simp] theorem State.resetBlock_payload1 (s : State) : s.resetBlock.payload1 = State.reset.payload1 := rfl
@[simp] theorem State.resetBlock_payload2 (s : State) : s.resetBlock.payload2 = State.reset.payload2 := rfl
@[simp] theorem State.resetBlock_resId (s : State) : s.resetBlock.resId = State.reset.resId := rfl
@[simp] theorem State.resetBlock_resFlags (s : State) : s.resetBlock.resFlags = State.reset.resFlags := rfl
@[simp] theorem State.resetBlock_resData (s : State) : s.resetBlock.resData = State.reset.resData := rfl
@[simp] theorem State.resetBlock_resPos (s : State) : s.resetBlock.resPos = State.reset.resPos := rfl
@[simp] theorem State.resetBlock_readingCount (s : State) : s.resetBlock.readingCount = State.reset.readingCount := rfl
@[simp] theorem State.resetBlock_sanityFailCount (s : State) : s.resetBlock.sanityFailCount = State.reset.sanityFailCount := rfl
@[simp] theorem State.resetBlock_raw (s : State) : s.resetBlock.raw = s.raw := rfl
@[simp] theorem State.resetBlock_powerOns (s : State) : s.resetBlock.powerOns = s.powerOns := rfl
@[simp] theorem State.resetBlock_program (s : State) : s.resetBlock.program = s.program := rfl
@[simp] theorem State.resetBlock_noted (s : State) : s.resetBlock.noted = s.noted := rfl
@[simp] theorem State.resetBlock_turns (s : State) : s.resetBlock.turns = s.turns := rfl

/-! ### powerOn -/

@[simp] theorem State.powerOn_params (s : State) : s.powerOn.params = s.params := rfl
@[simp] theorem State.powerOn_resValid (s : State) : s.powerOn.resValid = State.reset.resValid := rfl
@[simp] theorem State.powerOn_done (s : State) : s.powerOn.done = State.reset.done := rfl
@[simp] theorem State.powerOn_found (s : State) : s.powerOn.found = State.reset.found := rfl
@[simp] theorem State.powerOn_sanityOk (s : State) : s.powerOn.sanityOk = State.reset.sanityOk := rfl
@[simp] theorem State.powerOn_err (s : State) : s.powerOn.err = State.reset.err := rfl
@[simp] theorem State.powerOn_engine (s : State) : s.powerOn.engine = State.reset.engine := rfl
@[simp] theorem State.powerOn_mode (s : State) : s.powerOn.mode = State.reset.mode := rfl
@[simp] theorem State.powerOn_scanPos (s : State) : s.powerOn.scanPos = State.reset.scanPos := rfl
@[simp] theorem State.powerOn_irqEn (s : State) : s.powerOn.irqEn = State.reset.irqEn := rfl
@[simp] theorem State.powerOn_rowLen (s : State) : s.powerOn.rowLen = State.reset.rowLen := rfl
@[simp] theorem State.powerOn_start (s : State) : s.powerOn.start = State.reset.start := rfl
@[simp] theorem State.powerOn_rowIdx (s : State) : s.powerOn.rowIdx = State.reset.rowIdx := rfl
@[simp] theorem State.powerOn_matchPos (s : State) : s.powerOn.matchPos = State.reset.matchPos := rfl
@[simp] theorem State.powerOn_decCount (s : State) : s.powerOn.decCount = State.reset.decCount := rfl
@[simp] theorem State.powerOn_payload0 (s : State) : s.powerOn.payload0 = State.reset.payload0 := rfl
@[simp] theorem State.powerOn_payload1 (s : State) : s.powerOn.payload1 = State.reset.payload1 := rfl
@[simp] theorem State.powerOn_payload2 (s : State) : s.powerOn.payload2 = State.reset.payload2 := rfl
@[simp] theorem State.powerOn_resId (s : State) : s.powerOn.resId = State.reset.resId := rfl
@[simp] theorem State.powerOn_resFlags (s : State) : s.powerOn.resFlags = State.reset.resFlags := rfl
@[simp] theorem State.powerOn_resData (s : State) : s.powerOn.resData = State.reset.resData := rfl
@[simp] theorem State.powerOn_resPos (s : State) : s.powerOn.resPos = State.reset.resPos := rfl
@[simp] theorem State.powerOn_readingCount (s : State) : s.powerOn.readingCount = State.reset.readingCount := rfl
@[simp] theorem State.powerOn_sanityFailCount (s : State) : s.powerOn.sanityFailCount = State.reset.sanityFailCount := rfl
@[simp] theorem State.powerOn_raw (s : State) : s.powerOn.raw = [] := rfl
@[simp] theorem State.powerOn_powerOns (s : State) : s.powerOn.powerOns = s.powerOns + 1 := rfl
@[simp] theorem State.powerOn_program (s : State) : s.powerOn.program = s.program := rfl
@[simp] theorem State.powerOn_noted (s : State) : s.powerOn.noted = s.noted := rfl
@[simp] theorem State.powerOn_turns (s : State) : s.powerOn.turns = s.turns := rfl

end Sys2Proof.Machine
end

