-- ==== Sys2Proof/Laws/Ops.lean ====
section
/-! SUPPORT. What each shared check of a command can answer, what BUSY and the derived operands are after an update,
and what the busy guard can do. -/

namespace Sys2Proof.Machine

/-! ### Derived operands under the updates that leave them alone -/

theorem State.busy_iff (s : State) : s.busy = true ↔ s.engine ≠ .idle := by simp [State.busy]

theorem State.not_busy_iff (s : State) : s.busy = false ↔ s.engine = .idle := by
  simp [State.busy]

theorem State.engineEnabled_iff (s : State) :
    s.engineEnabled = true ↔
      s.engine ≠ .idle ∧ ¬ (s.engine = .extract ∧ s.resValid = true) := by
  cases h : s.engine <;> simp [State.engineEnabled, State.busy, h]

@[simp] theorem State.dropTurn_rowBit (s : State) : s.dropTurn.rowBit = s.rowBit := rfl
@[simp] theorem State.dropTurn_len (s : State) : s.dropTurn.len = s.len := rfl
@[simp] theorem State.dropTurn_busy (s : State) : s.dropTurn.busy = s.busy := rfl
@[simp] theorem State.dropTurn_rawByte (s : State) : s.dropTurn.rawByte = s.rawByte := rfl
@[simp] theorem State.dropTurn_engineEnabled (s : State) :
    s.dropTurn.engineEnabled = s.engineEnabled := rfl
@[simp] theorem State.startEngine_rowBit (s : State) (m : Mode) (e : EngineState) :
    (s.startEngine m e).rowBit = s.rowBit := rfl
@[simp] theorem State.startEngine_len (s : State) (m : Mode) (e : EngineState) :
    (s.startEngine m e).len = s.len := rfl
@[simp] theorem State.writeMatch_len (s : State) (m : Nat) : (s.writeMatch m).len = s.len := rfl
@[simp] theorem State.writeMatch_rowBit (s : State) (m : Nat) :
    (s.writeMatch m).rowBit = s.rowBit := rfl
@[simp] theorem State.writeDecode_len (s : State) (d : List Bool) :
    (s.writeDecode d).len = s.len := rfl
@[simp] theorem State.writeDecode_rowBit (s : State) (d : List Bool) :
    (s.writeDecode d).rowBit = s.rowBit := rfl
@[simp] theorem State.writeDecode_matchOfs (s : State) (d : List Bool) :
    (s.writeDecode d).matchOfs = s.matchOfs := rfl
@[simp] theorem State.writeDecode_resumeOfs (s : State) (d : List Bool) :
    (s.writeDecode d).resumeOfs = s.resumeOfs := rfl
@[simp] theorem State.emit_resumeOfs (s : State) : s.emit.resumeOfs = s.resumeOfs := rfl
@[simp] theorem State.emit_len (s : State) : s.emit.len = s.len := rfl
@[simp] theorem State.emit_rowBit (s : State) : s.emit.rowBit = s.rowBit := rfl
@[simp] theorem State.resumeScan_len (s : State) : s.resumeScan.len = s.len := rfl
@[simp] theorem State.resumeScan_rowBit (s : State) : s.resumeScan.rowBit = s.rowBit := rfl
@[simp] theorem State.pop_rowBit (s : State) : s.pop.rowBit = s.rowBit := rfl
@[simp] theorem State.pop_len (s : State) : s.pop.len = s.len := rfl

/-- A match offset below the row length fits MATCH_POS (R36). -/
theorem State.writeMatch_matchOfs {s : State} {m : Nat} (h : m ≤ s.len) :
    (s.writeMatch m).matchOfs = m := by
  have := s.rowLen.isLt
  simp only [State.len] at h
  simp only [State.matchOfs, State.writeMatch_matchPos, BitVec.toNat_ofNat]
  exact Nat.mod_eq_of_lt (by omega)

/-! ### The checks of R80 -/

/-- What the BUSY check lets through. -/
theorem whenIdle_next {s t : State} {k : Result} (h : whenIdle s k = .next t) :
    (s.busy = true ∧ t = s.reject .busy) ∨ (s.busy = false ∧ k = .next t) := by
  unfold whenIdle at h
  split at h
  · next hb => exact .inl ⟨hb, by simpa using h.symm⟩
  · next hb => exact .inr ⟨by simpa using hb, h⟩

/-- What the BAD_LEN check, and treatment (b), let through. -/
theorem whenRowOk_next {s t : State} {k : Result} (h : whenRowOk s k = .next t) :
    (s.params.rowMaxBits < s.len ∧ t = s.reject .badLen) ∨
    (s.len ≤ s.params.rowMaxBits ∧ s.rowReadable = true ∧ k = .next t) := by
  unfold whenRowOk at h
  split at h
  · next hl => exact .inl ⟨hl, by simpa using h.symm⟩
  · next hl =>
    split at h
    · next hr => exact .inr ⟨by omega, hr, h⟩
    · cases h

/-- What the NO_PAYLOAD check lets through. -/
theorem whenPayloadOk_next {s t : State} {k : Result} (h : whenPayloadOk s k = .next t) :
    (s.sanityOk = false ∧ t = s.reject .noPayload) ∨ (s.sanityOk = true ∧ k = .next t) := by
  unfold whenPayloadOk at h
  split at h
  · next hp => exact .inr ⟨hp, h⟩
  · next hp => exact .inl ⟨by simpa using hp, by simpa using h.symm⟩

/-- A command that goes on only after the row check faults exactly where the row may not be read (log 11). -/
theorem whenIdle_whenRowOk_fault {s t : State} {f : Fault}
    (h : whenIdle s (whenRowOk s (.next t)) = .fault f) :
    f = .unwrittenRow ∧ s.engine = .idle ∧ s.len ≤ s.params.rowMaxBits ∧
      s.rowReadable = false := by
  unfold whenIdle whenRowOk at h
  split at h
  · cases h
  · next hb =>
    split at h
    · cases h
    · next hl =>
      split at h
      · cases h
      · next hr =>
        cases h
        exact ⟨rfl, by simpa [State.busy] using hb, Nat.le_of_not_lt hl, by simpa using hr⟩

@[simp] theorem whenIdle_of_idle {s : State} (k : Result) (h : s.busy = false) :
    whenIdle s k = k := by simp [whenIdle, h]

@[simp] theorem whenIdle_of_busy {s : State} (k : Result) (h : s.busy = true) :
    whenIdle s k = .next (s.reject .busy) := by simp [whenIdle, h]

theorem whenRowOk_of_ok {s : State} (k : Result) (hl : s.len ≤ s.params.rowMaxBits)
    (hr : s.rowReadable = true) : whenRowOk s k = k := by
  simp [whenRowOk, hr, Nat.not_lt.mpr hl]

/-- The busy guard does one of two things (R53). -/
theorem State.guarded_cases (s stored : State) :
    (s.busy = true ∧ s.guarded stored = s.reject .busy) ∨
    (s.busy = false ∧ s.guarded stored = stored) := by
  unfold State.guarded
  split
  · next h => exact .inl ⟨h, rfl⟩
  · next h => exact .inr ⟨by simpa using h, rfl⟩

end Sys2Proof.Machine
end

