-- ==== Sys2Proof/Laws/Bus.lean ====
section
/-! SUPPORT. What an instruction and a bus write can do, said once: every next state of `exec` and of `busWrite` is one
of the effects listed by `HostEffect`. -/

namespace Sys2Proof.Machine

/-- The effects a host write can have on a state (R53, R77, R83, R182 to R185, R200). -/
inductive HostEffect (s : State) : State → Prop where
  | ignored : HostEffect s s
  | rejected (c : ErrCode) : HostEffect s (s.reject c)
  | nop (idle : s.busy = false) : HostEffect s s.accept.setDone
  | cleared (idle : s.busy = false) : HostEffect s s.accept.clearCounts.setDone
  | scanRow (idle : s.busy = false) (len : s.len ≤ s.params.rowMaxBits) :
      HostEffect s { s.startEngine .scan .find with scanPos := 0 }
  | find (idle : s.busy = false) (len : s.len ≤ s.params.rowMaxBits) :
      HostEffect s (s.startEngine .single .find)
  | decode (idle : s.busy = false) (len : s.len ≤ s.params.rowMaxBits) :
      HostEffect s (s.startEngine .single .decode)
  | extract (idle : s.busy = false) (payload : s.sanityOk = true) :
      HostEffect s (s.startEngine .single .extract)
  | popped : HostEffect s s.pop
  | doneCleared (v : Word) : HostEffect s { s with done := s.done && !clearsDone v }
  | irqEn (v : BitVec 2) : HostEffect s { s with irqEn := v }
  | rowLen (idle : s.busy = false) (v : BitVec 16) : HostEffect s { s with rowLen := v }
  | start (idle : s.busy = false) (v : BitVec 16) : HostEffect s { s with start := v }
  | rowIdx (idle : s.busy = false) (v : BitVec 8) : HostEffect s { s with rowIdx := v }
  | raw (idle : s.busy = false) (a : BusAddr) (w : Nat) (v : Word)
      (window : rawWordAt s.params a = some w) : HostEffect s (s.writeRaw w v)

/-- Every next state of an instruction is a host effect. -/
theorem exec_next {i : Instr} {s t : State} (h : exec i s = .next t) : HostEffect s t := by
  cases i with
  | nop =>
    rcases whenIdle_next h with ⟨_, rfl⟩ | ⟨hb, h⟩
    · exact .rejected _
    · cases h; exact .nop hb
  | scanRow =>
    rcases whenIdle_next h with ⟨_, rfl⟩ | ⟨hb, h⟩
    · exact .rejected _
    rcases whenRowOk_next h with ⟨_, rfl⟩ | ⟨hl, _, h⟩
    · exact .rejected _
    · cases h; exact .scanRow hb hl
  | find =>
    rcases whenIdle_next h with ⟨_, rfl⟩ | ⟨hb, h⟩
    · exact .rejected _
    rcases whenRowOk_next h with ⟨_, rfl⟩ | ⟨hl, _, h⟩
    · exact .rejected _
    · cases h; exact .find hb hl
  | decode =>
    rcases whenIdle_next h with ⟨_, rfl⟩ | ⟨hb, h⟩
    · exact .rejected _
    rcases whenRowOk_next h with ⟨_, rfl⟩ | ⟨hl, _, h⟩
    · exact .rejected _
    · cases h; exact .decode hb hl
  | extract =>
    rcases whenIdle_next h with ⟨_, rfl⟩ | ⟨hb, h⟩
    · exact .rejected _
    rcases whenPayloadOk_next h with ⟨_, rfl⟩ | ⟨hp, h⟩
    · exact .rejected _
    · cases h; exact .extract hb hp
  | clearCounts =>
    rcases whenIdle_next h with ⟨_, rfl⟩ | ⟨hb, h⟩
    · exact .rejected _
    · cases h; exact .cleared hb
  | resPop v => cases h; exact .popped
  | statusW1c v => cases h; exact .doneCleared v

/-- The instructions that fault, and where (log 11). -/
theorem exec_fault {i : Instr} {s : State} {f : Fault} (h : exec i s = .fault f) :
    i ∈ [.scanRow, .find, .decode] ∧ f = .unwrittenRow ∧ s.engine = .idle ∧
      s.len ≤ s.params.rowMaxBits ∧ s.rowReadable = false := by
  cases i with
  | scanRow => exact ⟨by simp, whenIdle_whenRowOk_fault h⟩
  | find => exact ⟨by simp, whenIdle_whenRowOk_fault h⟩
  | decode => exact ⟨by simp, whenIdle_whenRowOk_fault h⟩
  | nop => simp only [exec, execNop, whenIdle] at h; split at h <;> cases h
  | clearCounts => simp only [exec, execClearCounts, whenIdle] at h; split at h <;> cases h
  | extract =>
    simp only [exec, execExtract, whenIdle, whenPayloadOk] at h
    split at h
    · cases h
    · split at h <;> cases h
  | resPop _ => cases h
  | statusW1c _ => cases h

/-- A bus write faults only as the instruction it decodes to. -/
theorem busWrite_fault {a : BusAddr} {v : Word} {s : State} {f : Fault}
    (h : busWrite a v s = .fault f) :
    ∃ i, decode ⟨a, v⟩ = .ok i ∧ exec i s = .fault f := by
  unfold busWrite at h
  split at h
  · next i hd => exact ⟨i, hd, h⟩
  · unfold illegalCommand whenIdle at h; split at h <;> cases h
  all_goals cases h

/-- A guarded write is rejected or stores. -/
theorem hostEffect_guarded {s stored : State} (h : s.busy = false → HostEffect s stored) :
    HostEffect s (s.guarded stored) := by
  rcases s.guarded_cases stored with ⟨_, e⟩ | ⟨hb, e⟩ <;> rw [e]
  · exact .rejected _
  · exact h hb

theorem load_effect (r : LoadReg) (v : Word) (s : State) : HostEffect s (s.load r v) := by
  cases r
  · exact .irqEn _
  · exact hostEffect_guarded fun hb => .rowLen hb _
  · exact hostEffect_guarded fun hb => .start hb _
  · exact hostEffect_guarded fun hb => .rowIdx hb _

theorem writeWindow_effect (a : BusAddr) (v : Word) (s : State) :
    HostEffect s (s.writeWindow a v) := by
  unfold State.writeWindow
  split
  · next w hw => exact hostEffect_guarded fun hb => .raw hb a w v hw
  · exact .ignored

/-- Every next state of a bus write is a host effect. -/
theorem busWrite_next {a : BusAddr} {v : Word} {s t : State} (h : busWrite a v s = .next t) :
    HostEffect s t := by
  unfold busWrite at h
  split at h
  · exact exec_next h
  · rcases whenIdle_next h with ⟨_, rfl⟩ | ⟨_, h⟩
    · exact .rejected _
    · cases h; exact .rejected _
  · cases h; exact load_effect _ _ _
  · cases h; exact .ignored
  · cases h; exact writeWindow_effect _ _ _

/-- A bus write never touches the parameters, the engine's results, SCAN_POS while busy, or the host's own data. -/
theorem HostEffect.keeps {s t : State} (h : HostEffect s t) :
    t.params = s.params ∧ t.found = s.found ∧ t.sanityOk = s.sanityOk ∧
    t.matchPos = s.matchPos ∧ t.decCount = s.decCount ∧ t.payload0 = s.payload0 ∧
    t.payload1 = s.payload1 ∧ t.payload2 = s.payload2 ∧ t.resId = s.resId ∧
    t.resFlags = s.resFlags ∧ t.resData = s.resData ∧ t.resPos = s.resPos ∧
    t.powerOns = s.powerOns ∧ t.program = s.program ∧ t.noted = s.noted ∧
    t.turns = s.turns := by
  cases h <;> simp

/-- While BUSY = 1 a host write changes at most ERR, RES_VALID, DONE and IRQ_EN (R53). -/
theorem HostEffect.keeps_of_busy {s t : State} (h : HostEffect s t) (hb : s.busy = true) :
    t.raw = s.raw ∧ t.rowLen = s.rowLen ∧ t.start = s.start ∧ t.rowIdx = s.rowIdx ∧
    t.engine = s.engine ∧ t.mode = s.mode ∧ t.scanPos = s.scanPos ∧
    t.readingCount = s.readingCount ∧ t.sanityFailCount = s.sanityFailCount := by
  cases h <;> simp_all

/-! ### The RAW window -/

/-- An address in the window names a word of RAW, whose four bytes lie in the window. -/
theorem rawWordAt_bounds {p : Params} {a : BusAddr} {w : Nat} (h : rawWordAt p a = some w)
    (hp : p.rowMaxBits % 32 = 0) :
    rawBase ≤ rawAddr w ∧ rawAddr w + 4 ≤ rawBase + p.rowMaxBits / 8 := by
  simp only [rawWordAt] at h
  split at h
  · next hw =>
    have : (wordAddr a).toNat % 4 = 0 := by
      have h4 : wordAddr a = a &&& 0xFFFC#16 := rfl
      have : (wordAddr a) &&& 3#16 = 0#16 := by
        rw [h4, BitVec.and_assoc]
        have : (0xFFFC#16 &&& 3#16) = 0#16 := by decide
        rw [this, BitVec.and_zero]
      have := congrArg BitVec.toNat this
      simp only [BitVec.toNat_and, BitVec.toNat_ofNat] at this
      have h3 : (3 : Nat) % 2 ^ 16 = 2 ^ 2 - 1 := by decide
      rw [h3, Nat.and_two_pow_sub_one_eq_mod] at this
      simpa using this
    simp only [rawBase, rawAddr] at *
    simp only [Option.some.injEq] at h
    omega
  · cases h

/-- A written word reads back (R61, R185). -/
theorem State.rawWord_writeRaw_same (s : State) (w : Nat) (v : Word) :
    (s.writeRaw w v).rawWord w = v := by
  have h := Memory.read_writeWord_bytes s.raw (rawAddr w) v
  simp only [State.rawWord, State.rawByte, State.writeRaw, h.1, h.2.1, h.2.2.1, h.2.2.2,
    Option.getD_some]
  exact word_of_bytes v

/-- Every byte outside a written word reads as before. -/
theorem State.rawByte_writeRaw_other (s : State) (w : Nat) (v : Word) (a : Nat)
    (h : a < rawAddr w ∨ rawAddr w + 4 ≤ a) : (s.writeRaw w v).rawByte a = s.rawByte a := by
  simp [State.rawByte, State.writeRaw, Memory.read_writeWord_other s.raw v h]

end Sys2Proof.Machine
end

