-- ==== Sys2Proof/Laws/Manchester.lean ====
section
/-! SUPPORT. The decoder's small lemmas: how the loop unfolds, its count, and the packing of bits into bytes. -/

namespace Sys2Proof.Machine

/-- One round of the loop (R122): it ends, or it produces one bit and goes on two raw bits further. -/
theorem manchFrom_succ (conv : ManchConv) (row : Nat → Bool) (len n p : Nat) :
    manchFrom conv row len (n + 1) p =
      if p + 2 ≤ len ∧ row p ≠ row (p + 1) then
        decodeBit conv (row p) (row (p + 1)) :: manchFrom conv row len n (p + 2)
      else [] := by
  simp only [manchFrom]
  by_cases h1 : p + 2 > len
  · simp [h1, Nat.not_le.mpr h1]
  · by_cases h2 : row p = row (p + 1)
    · simp [h2]
    · simp [h1, h2, Nat.le_of_not_lt h1]

/-- At most `n` bits are produced. -/
theorem manchFrom_length_le (conv : ManchConv) (row : Nat → Bool) (len n p : Nat) :
    (manchFrom conv row len n p).length ≤ n := by
  induction n generalizing p with
  | zero => simp [manchFrom]
  | succ n ih =>
    rw [manchFrom_succ]
    split
    · simpa using ih (p + 2)
    · simp

/-- The count of a decode is at most 80 (R37, R122). -/
theorem manch_length_le (conv : ManchConv) (row : Nat → Bool) (len s : Nat) :
    (manch conv row len s).length ≤ 80 := manchFrom_length_le _ _ _ _ _

theorem State.manchAt_length_le (s : State) (ofs : Nat) : (s.manchAt ofs).length ≤ 80 :=
  manch_length_le _ _ _ _

/-- The count of a decode fits DEC_COUNT (R37). -/
theorem State.writeDecode_count {s : State} {d : List Bool} (h : d.length ≤ 80) :
    (s.writeDecode d).decCount.toNat = d.length := by
  simp only [State.writeDecode, BitVec.toNat_ofNat]
  exact Nat.mod_eq_of_lt (by omega)

/-- Bit `i` from the left of packed bits is the i-th bit (R123). -/
theorem msbFirst_getMsbD (n : Nat) (f : Nat → Bool) (i : Nat) :
    (msbFirst n f).getMsbD i = (decide (i < n) && f i) := by
  induction n generalizing f i with
  | zero => simp [msbFirst]
  | succ n ih =>
    cases i with
    | zero => simp [msbFirst, BitVec.getMsbD_eq_getLsbD, BitVec.getElem_cons]
    | succ i =>
      have := ih (fun i => f (i + 1)) i
      simp only [BitVec.getMsbD_eq_getLsbD] at this
      simp only [msbFirst, BitVec.getMsbD_eq_getLsbD, BitVec.getLsbD_cons]
      by_cases h : i < n
      · have hne : ¬ (n + 1 - 1 - (i + 1) = n) := by omega
        have he : n + 1 - 1 - (i + 1) = n - 1 - i := by omega
        rw [if_neg hne, he]
        simp [h] at this ⊢
        exact this
      · simp [h]

/-- Bit `j` of payload byte `q`, from the left, is `d[8q + j]` (R123). -/
theorem payloadByteOf_getMsbD (d : List Bool) (q j : Nat) (h : j < 8) :
    (payloadByteOf d q).getMsbD j = payloadBit d (8 * q + j) := by
  simp [payloadByteOf, msbFirst_getMsbD, h]

/-- The decode loop depends on the row below the length only. -/
theorem manchFrom_congr {conv : ManchConv} {row row' : Nat → Bool} {len : Nat}
    (h : ∀ k < len, row' k = row k) (n p : Nat) :
    manchFrom conv row' len n p = manchFrom conv row len n p := by
  induction n generalizing p with
  | zero => rfl
  | succ n ih =>
    simp only [manchFrom_succ, ih]
    by_cases hl : p + 2 ≤ len
    · rw [h p (by omega), h (p + 1) (by omega)]
    · simp [hl]

end Sys2Proof.Machine
end

