-- ==== Sys2Proof/Laws/Scanner.lean ====
section
/-! SUPPORT. The scanner's small lemmas: what a match is, and how the search loop unfolds. -/

namespace Sys2Proof.Machine

/-- A match is equality of all 16 bits (R102, R105). -/
theorem matchesAt_iff (row : Nat → Bool) (mk : BitVec 16) (m : Nat) :
    matchesAt row mk m = true ↔ ∀ i < 16, row (m + i) = markerBit mk i := by
  simp [matchesAt, Config.markerLen]

/-- A match depends on the 16 bits it compares and on no others. -/
theorem matchesAt_congr {row row' : Nat → Bool} {mk : BitVec 16} {m : Nat}
    (h : ∀ i < 16, row (m + i) = row' (m + i)) : matchesAt row mk m = matchesAt row' mk m := by
  rw [Bool.eq_iff_iff, matchesAt_iff, matchesAt_iff]
  exact ⟨fun g i hi => (h i hi).symm.trans (g i hi), fun g i hi => (h i hi).trans (g i hi)⟩

/-- The search loop answers the length, or an offset in its range where the marker occurs. -/
theorem searchFrom_cases (row : Nat → Bool) (mk : BitVec 16) (len : Nat) (n m : Nat) :
    searchFrom row mk len n m = len ∨
    (m ≤ searchFrom row mk len n m ∧ searchFrom row mk len n m + 16 ≤ len ∧
      matchesAt row mk (searchFrom row mk len n m) = true) := by
  induction n generalizing m with
  | zero => exact .inl rfl
  | succ n ih =>
    simp only [searchFrom, Config.markerLen]
    split
    · next hl =>
      split
      · next hm => exact .inr ⟨le_refl _, hl, hm⟩
      · rcases ih (m + 1) with h | ⟨h1, h2, h3⟩
        · exact .inl h
        · exact .inr ⟨by omega, h2, h3⟩
    · exact .inl rfl

/-- Every candidate the loop passes over is no match. -/
theorem searchFrom_skips {row : Nat → Bool} {mk : BitVec 16} {len n m k : Nat}
    (hk : m ≤ k) (hlt : k < searchFrom row mk len n m) (hlen : k + 16 ≤ len) (hn : k < m + n) :
    matchesAt row mk k = false := by
  induction n generalizing m with
  | zero => omega
  | succ n ih =>
    simp only [searchFrom, Config.markerLen] at hlt
    split at hlt
    · next hl =>
      split at hlt
      · omega
      · next hm =>
        rcases Nat.eq_or_lt_of_le hk with rfl | hk'
        · simpa using hm
        · exact ih (by omega) hlt (by omega)
    · omega

/-- The result of a search is at most the length (R102). -/
theorem search_le (row : Nat → Bool) (mk : BitVec 16) (len s : Nat) :
    search row mk len s ≤ len := by
  rcases searchFrom_cases row mk len (len - 15 - s) s with h | ⟨_, h, _⟩
  · exact le_of_eq h
  · exact le_trans (Nat.le_add_right _ 16) h

theorem State.searchFor_le (s : State) (ofs : Nat) : s.searchFor ofs ≤ s.len :=
  search_le _ _ _ _

/-- The search loop depends on the row below the length only. -/
theorem searchFrom_congr {row row' : Nat → Bool} {mk : BitVec 16} {len : Nat}
    (h : ∀ k < len, row' k = row k) (n m : Nat) :
    searchFrom row' mk len n m = searchFrom row mk len n m := by
  induction n generalizing m with
  | zero => rfl
  | succ n ih =>
    simp only [searchFrom, Config.markerLen, ih]
    split
    · next hl => rw [matchesAt_congr (row := row') (row' := row) fun i hi => h _ (by omega)]
    · rfl

end Sys2Proof.Machine
end

