-- ==== Sys2Proof/Laws/Engine.lean ====
section
/-! SUPPORT. What one engine step can do, said once (R71, R162), and how far a SCAN_ROW's steps reach. -/

namespace Sys2Proof.Machine

/-- Without an enabled step the engine changes nothing. -/
@[simp] theorem engineStep_of_not_enabled {s : State} (h : s.engineEnabled = false) :
    engineStep s = s := by simp [engineStep, h]

/-- The two outcomes of a SCAN-mode FIND step (R163). -/
theorem findScan_cases (s : State) :
    (s.searchFor s.scanPos + 176 ≤ s.len ∧
      findScan s = { s.writeMatch (s.searchFor s.scanPos) with engine := .decode }) ∨
    (s.len < s.searchFor s.scanPos + 176 ∧
      findScan s = (s.writeMatch (s.searchFor s.scanPos)).finish) := by
  unfold findScan
  by_cases h : s.searchFor s.scanPos + Config.minTail ≤ s.len
  · exact .inl ⟨h, if_pos h⟩
  · exact .inr ⟨Nat.lt_of_not_le h, if_neg h⟩

/-- The two outcomes of a SCAN-mode DECODE step (R164). -/
theorem decodeScan_cases (s : State) :
    ((s.manchAt (s.matchOfs + 16)).length = 80 ∧
      decodeScan s = { s.writeDecode (s.manchAt (s.matchOfs + 16)) with engine := .extract }) ∨
    ((s.manchAt (s.matchOfs + 16)).length ≠ 80 ∧
      decodeScan s = (s.writeDecode (s.manchAt (s.matchOfs + 16))).resumeScan) := by
  unfold decodeScan
  by_cases h : (s.manchAt (s.matchOfs + Config.markerLen)).length = Config.nDec
  · exact .inl ⟨h, if_pos h⟩
  · exact .inr ⟨h, if_neg h⟩

/-- Every engine step is one of seven: none, or the step of its state and mode. -/
theorem engineStep_cases (s : State) :
    (s.engineEnabled = false ∧ engineStep s = s) ∨
    (s.engine = .find ∧ s.mode = .single ∧ engineStep s = findSingle s) ∨
    (s.engine = .find ∧ s.mode = .scan ∧ engineStep s = findScan s) ∨
    (s.engine = .decode ∧ s.mode = .single ∧ engineStep s = decodeSingle s) ∨
    (s.engine = .decode ∧ s.mode = .scan ∧ engineStep s = decodeScan s) ∨
    (s.engine = .extract ∧ s.mode = .single ∧ s.resValid = false ∧
      engineStep s = extractSingle s) ∨
    (s.engine = .extract ∧ s.mode = .scan ∧ s.resValid = false ∧
      engineStep s = extractScan s) := by
  by_cases he : s.engineEnabled = true
  · have hx := (State.engineEnabled_iff s).mp he
    unfold engineStep
    rw [if_pos he]
    cases h1 : s.engine <;> cases h2 : s.mode <;> simp_all
  · exact .inl ⟨by simpa using he, engineStep_of_not_enabled (by simpa using he)⟩

/-! ### The step of each state and mode -/

theorem engineStep_findSingle {s : State} (he : s.engine = .find) (hm : s.mode = .single) :
    engineStep s = findSingle s := by simp [engineStep, State.engineEnabled, State.busy, he, hm]

theorem engineStep_findScan {s : State} (he : s.engine = .find) (hm : s.mode = .scan) :
    engineStep s = findScan s := by simp [engineStep, State.engineEnabled, State.busy, he, hm]

theorem engineStep_decodeSingle {s : State} (he : s.engine = .decode) (hm : s.mode = .single) :
    engineStep s = decodeSingle s := by simp [engineStep, State.engineEnabled, State.busy, he, hm]

theorem engineStep_decodeScan {s : State} (he : s.engine = .decode) (hm : s.mode = .scan) :
    engineStep s = decodeScan s := by simp [engineStep, State.engineEnabled, State.busy, he, hm]

theorem engineStep_extractSingle {s : State} (he : s.engine = .extract) (hm : s.mode = .single)
    (hv : s.resValid = false) : engineStep s = extractSingle s := by
  simp [engineStep, State.engineEnabled, State.busy, he, hm, hv]

theorem engineStep_extractScan {s : State} (he : s.engine = .extract) (hm : s.mode = .scan)
    (hv : s.resValid = false) : engineStep s = extractScan s := by
  simp [engineStep, State.engineEnabled, State.busy, he, hm, hv]

/-- The hold: a full result slot leaves the engine without a step (R144). -/
theorem engineStep_hold {s : State} (he : s.engine = .extract) (hv : s.resValid = true) :
    engineStep s = s := by
  simp [engineStep, State.engineEnabled, State.busy, he, hv]

theorem engineStep_idle {s : State} (he : s.engine = .idle) : engineStep s = s := by
  simp [engineStep, State.engineEnabled, State.busy, he]

/-- No engine step writes what the host owns: the row and its operands, IRQ_EN, ERR, the mode, the parameters, nor the
host's own data (R28, R49, R64). -/
theorem engineStep_keeps (s : State) :
    (engineStep s).params = s.params ∧ (engineStep s).raw = s.raw ∧
    (engineStep s).powerOns = s.powerOns ∧ (engineStep s).rowLen = s.rowLen ∧
    (engineStep s).start = s.start ∧ (engineStep s).rowIdx = s.rowIdx ∧
    (engineStep s).irqEn = s.irqEn ∧ (engineStep s).err = s.err ∧
    (engineStep s).mode = s.mode ∧ (engineStep s).program = s.program ∧
    (engineStep s).noted = s.noted ∧ (engineStep s).turns = s.turns := by
  rcases engineStep_cases s with ⟨_, h⟩ | ⟨_, _, h⟩ | ⟨_, _, h⟩ | ⟨_, _, h⟩ | ⟨_, _, h⟩ |
    ⟨_, _, _, h⟩ | ⟨_, _, _, h⟩ <;> rw [h]
  · simp
  · simp [findSingle]
  · rcases findScan_cases s with ⟨_, h⟩ | ⟨_, h⟩ <;> simp [h]
  · simp [decodeSingle]
  · rcases decodeScan_cases s with ⟨_, h⟩ | ⟨_, h⟩ <;> simp [h]
  · simp [extractSingle]
  · simp [extractScan]

end Sys2Proof.Machine
end

