-- ==== Sys2Proof/Laws/Extractor.lean ====
section
/-! SUPPORT. The payload bytes as slices of the registers that hold them (R38), and a reading's fields in those terms. -/

namespace Sys2Proof.Machine

/-- Bytes b0 to b3 together are PAYLOAD0 (R38, R39). -/
theorem State.payloadBytes_resId (s : State) :
    s.payloadByte 0 ++ s.payloadByte 1 ++ s.payloadByte 2 ++ s.payloadByte 3 = s.payload0 := by
  have slice : ∀ k, 32 ≤ k → k ≤ 56 →
      s.payload.extractLsb' (16 + k) 8 = s.payload0.extractLsb' (k - 32) 8 := by
    intro k h1 h2
    apply BitVec.eq_of_getLsbD_eq
    intro i hi
    simp only [State.payload, BitVec.getLsbD_extractLsb', BitVec.getLsbD_append]
    rw [if_neg (by omega), if_neg (by omega)]
    congr 2; omega
  have b0 := slice 56 (by omega) (by omega)
  have b1 := slice 48 (by omega) (by omega)
  have b2 := slice 40 (by omega) (by omega)
  have b3 := slice 32 (by omega) (by omega)
  simp only [Nat.reduceAdd, Nat.reduceSub] at b0 b1 b2 b3
  simp only [State.payloadByte, Nat.reduceMul, Nat.reduceSub, b0, b1, b2, b3]
  exact word_of_bytes s.payload0

/-- Bytes b4 to b7 are the bytes of PAYLOAD1 (R38). -/
theorem State.payloadByte_of_payload1 (s : State) (q : Nat) (h4 : 4 ≤ q) (h7 : q ≤ 7) :
    s.payloadByte q = s.payload1.extractLsb' (56 - 8 * q) 8 := by
  apply BitVec.eq_of_getLsbD_eq
  intro i hi
  simp only [State.payloadByte, State.payload, BitVec.getLsbD_extractLsb', BitVec.getLsbD_append]
  rw [if_neg (by omega), if_pos (by omega)]
  congr 2; omega

/-- Byte b8 is the upper byte of PAYLOAD2's defined half (R38). -/
theorem State.payloadByte_eight (s : State) : s.payloadByte 8 = s.payload2.extractLsb' 8 8 := by
  apply BitVec.eq_of_getLsbD_eq
  intro i hi
  simp only [State.payloadByte, State.payload, BitVec.getLsbD_extractLsb', BitVec.getLsbD_append]
  rw [if_pos (by omega)]

/-- `emit`, with every field a slice of the payload registers (R144, R145). -/
theorem State.emit_eq (s : State) : s.emit = { s with
    resId := s.payload0
    resFlags := integrityUnverified ++ s.payload1.extractLsb' 24 8
    resData := s.payload2.extractLsb' 8 8 ++ s.payload1.extractLsb' 0 8
      ++ s.payload1.extractLsb' 8 8 ++ s.payload1.extractLsb' 16 8
    resPos := s.rowIdx ++ s.matchPos
    resValid := true
    readingCount := s.readingCount + 1#32 } := by
  have h : ∀ q, 4 ≤ q → q ≤ 7 → s.payloadByte q = s.payload1.extractLsb' (56 - 8 * q) 8 :=
    s.payloadByte_of_payload1
  simp only [State.emit, s.payloadBytes_resId, s.payloadByte_eight, h 4 (by omega) (by omega),
    h 5 (by omega) (by omega), h 6 (by omega) (by omega), h 7 (by omega) (by omega)]

end Sys2Proof.Machine
end

