-- ==== Sys2Proof/Laws/PerInstr.lean ====
section
/-! SUPPORT. A property of every instruction as syntax, one lemma per constructor: the instruction's encoding is matched
by a row of the opcode table that bears its mnemonic (R91), and it is well formed. -/

namespace Sys2Proof.Laws.TableRow

/-- The instruction is well formed, and its table row accepts its encoding. -/
def Statement (i : Instr) : Prop :=
  i.wf = true ∧ ∃ r ∈ opcodeTable, r.mnemonic = i.mnemonic ∧ r.accepts (encode i) = true

theorem nop : Statement .nop :=
  ⟨rfl, ⟨"NOP", .cmd, 0#32, 0xFFFFFFFF#32⟩, by decide, rfl, by decide⟩

theorem scanRow : Statement .scanRow :=
  ⟨rfl, ⟨"SCAN_ROW", .cmd, 1#32, 0xFFFFFFFF#32⟩, by decide, rfl, by decide⟩

theorem find : Statement .find :=
  ⟨rfl, ⟨"FIND", .cmd, 2#32, 0xFFFFFFFF#32⟩, by decide, rfl, by decide⟩

theorem decode : Statement .decode :=
  ⟨rfl, ⟨"DECODE", .cmd, 3#32, 0xFFFFFFFF#32⟩, by decide, rfl, by decide⟩

theorem extract : Statement .extract :=
  ⟨rfl, ⟨"EXTRACT", .cmd, 4#32, 0xFFFFFFFF#32⟩, by decide, rfl, by decide⟩

theorem clearCounts : Statement .clearCounts :=
  ⟨rfl, ⟨"CLEAR_COUNTS", .cmd, 5#32, 0xFFFFFFFF#32⟩, by decide, rfl, by decide⟩

theorem resPop (data : Word) : Statement (.resPop data) :=
  ⟨rfl, ⟨"RES_POP", .bus, 0x000C#32, 0xFFFC#32⟩, by decide, rfl,
    by simp [TableRow.accepts, encode, Reg.addr]⟩

theorem statusW1c (data : Word) : Statement (.statusW1c data) :=
  ⟨rfl, ⟨"STATUS_W1C", .bus, 0x0004#32, 0xFFFC#32⟩, by decide, rfl,
    by simp [TableRow.accepts, encode, Reg.addr]⟩

end Sys2Proof.Laws.TableRow
end

