-- ==== Sys2Proof/Laws/Step.lean ====
section
/-! SUPPORT. What a step can do, said once (R70, R71): every next state of `step` is one of the effects listed by
`StepEffect`, and the only fault is the one of treatment (b) of U1. -/

namespace Sys2Proof.Machine

/-- The effects a step can have, on the state whose turn has been taken off the schedule. -/
inductive StepEffect (s : State) : State → Prop where
  | noStatement (turn : s.nextTurn = .host) (done : s.program = []) : StepEffect s s.dropTurn
  | write (turn : s.nextTurn = .host) (a : BusAddr) (v : Word) (rest : List HostOp)
      (stmt : s.program = .write a v :: rest) (t : State)
      (effect : HostEffect { s.dropTurn with program := rest } t)
      (ran : busWrite a v { s.dropTurn with program := rest } = .next t) : StepEffect s t
  | read (turn : s.nextTurn = .host) (v : Word) (rest : List HostOp)
      (noWrite : ∀ a v rest, s.program ≠ .write a v :: rest) :
      StepEffect s ({ s.dropTurn with program := rest }.note v)
  | engine (turn : s.nextTurn = .engine) : StepEffect s (engineStep s.dropTurn)
  | reset (turn : s.nextTurn = .reset) : StepEffect s s.dropTurn.resetBlock
  | powerOn (turn : s.nextTurn = .powerOn) : StepEffect s s.dropTurn.powerOn

theorem pollStatus_eq (ends : Word → Bool) (rest : List HostOp) (s : State) :
    pollStatus ends rest s =
      { s with program := if ends s.statusWord then rest else s.program }.note s.statusWord := rfl

/-- Every next state of a step is a step effect. -/
theorem step_next {s t : State} (h : step s = .next t) : StepEffect s t := by
  unfold step at h
  cases ht : s.nextTurn with
  | host =>
    rw [ht] at h
    simp only [takeTurn, hostStep] at h
    split at h
    · next hp => cases h; exact .noStatement ht (by simpa using hp)
    · next a v rest hp => exact .write ht a v rest (by simpa using hp) t (busWrite_next h) h
    all_goals
      next hp =>
        cases h
        exact .read ht _ _ fun a v rest hw => by rw [State.dropTurn_program, hw] at hp; cases hp
  | engine => rw [ht] at h; cases h; exact .engine ht
  | reset => rw [ht] at h; cases h; exact .reset ht
  | powerOn => rw [ht] at h; cases h; exact .powerOn ht

/-- The only step that stops is the host's write of a command whose row may not be read (log 11). -/
theorem step_fault {s : State} {f : Fault} (h : step s = .fault f) :
    s.nextTurn = .host ∧ ∃ a v rest, s.program = .write a v :: rest ∧
      busWrite a v { s.dropTurn with program := rest } = .fault f := by
  unfold step at h
  cases ht : s.nextTurn with
  | host =>
    rw [ht] at h
    simp only [takeTurn, hostStep] at h
    split at h
    · cases h
    · next a v rest hp => exact ⟨rfl, a, v, rest, by simpa using hp, h⟩
    all_goals cases h
  | engine => rw [ht] at h; cases h
  | reset => rw [ht] at h; cases h
  | powerOn => rw [ht] at h; cases h

/-- The turn a schedule that is not used up gives. -/
theorem State.nextTurn_cons {s : State} {t : Turn} {ts : List Turn} (h : s.turns = t :: ts) :
    s.nextTurn = t := by simp [State.nextTurn, h]

/-- A scheduled engine turn takes one engine step. -/
theorem step_engine {s : State} (h : s.nextTurn = .engine) :
    step s = .next (engineStep s.dropTurn) := by simp [step, h, takeTurn]

/-- A step takes one turn off the schedule. -/
theorem step_turns {s t : State} (h : step s = .next t) : t.turns = s.turns.tail := by
  cases step_next h with
  | noStatement => rfl
  | write _ a v rest stmt _ effect =>
    obtain ⟨-, -, -, -, -, -, -, -, -, -, -, -, -, -, -, ht⟩ := effect.keeps
    exact ht
  | read => rfl
  | engine => exact (engineStep_keeps _).2.2.2.2.2.2.2.2.2.2.2
  | reset => rfl
  | powerOn => rfl

/-- A run of `n + 1` steps whose first step answers a next state goes on from it. -/
theorem core_run_next {s t : State} (n : Nat) (h : step s = .next t) :
    core.run (n + 1) s = core.run n t := by
  have run : ∀ (M : Host.Core) (s t : M.State), M.step s = .next t → M.run (n + 1) s = M.run n t := by
    intro M s t h
    rw [Host.Core.run, h]
  exact run core s t h

end Sys2Proof.Machine
end

