-- ==== Sys2Proof/Tests/Slice0.lean ====
section
/-! SUPPORT. The model's own tests: the smoke tests of the well-formedness checks, decoding from words written out from
30_encoding.md, one-step tests whose expected values are those of 95_test_vectors.md (named at each test), and for every
statement with hypotheses a witness that meets them. -/

namespace Sys2Proof.Tests

open Sys2Proof.Machine

/-! ## Well-formedness -/

theorem test_wf_default : Params.default.wf = true := by decide

theorem test_wf_row_bounds :
    (Params.rowMaxBitsOk { rowMaxBits := 32 } && Params.rowMaxBitsOk { rowMaxBits := 32768 }) = true
    := by decide

theorem test_wf_refuses_no_multiple : Params.wf { rowMaxBits := 1000 } = false := by decide

theorem test_wf_refuses_empty_row : Params.wf { rowMaxBits := 0 } = false := by decide

theorem test_wf_refuses_long_row : Params.wf { rowMaxBits := 32800 } = false := by decide

theorem test_wf_refuses_step_zero : Params.wf { scanStep := 0 } = false := by decide

theorem test_wf_refuses_step_seventeen : Params.wf { scanStep := 17 } = false := by decide

theorem test_wf_step_sixteen : Params.wf { scanStep := 16 } = true := by decide

/-! ## Decoding: the words of R81 and R82 (RSVD, OPCODE) and the addresses of R20 -/

theorem test_decode_nop : decode ⟨0x000#16, 0#28 ++ 0x0#4⟩ = .ok .nop := by decide

theorem test_decode_scan_row : decode ⟨0x000#16, 0#28 ++ 0x1#4⟩ = .ok .scanRow := by decide

theorem test_decode_find : decode ⟨0x000#16, 0#28 ++ 0x2#4⟩ = .ok .find := by decide

theorem test_decode_decode : decode ⟨0x000#16, 0#28 ++ 0x3#4⟩ = .ok .decode := by decide

theorem test_decode_extract : decode ⟨0x000#16, 0#28 ++ 0x4#4⟩ = .ok .extract := by decide

theorem test_decode_clear_counts : decode ⟨0x000#16, 0#28 ++ 0x5#4⟩ = .ok .clearCounts := by decide

theorem test_decode_res_pop : decode ⟨0x00C#16, 0xDEADBEEF#32⟩ = .ok (.resPop 0xDEADBEEF#32) := by
  decide

theorem test_decode_status : decode ⟨0x004#16, 0x00000004#32⟩ = .ok (.statusW1c 4#32) := by decide

/-- R66: address bits 1:0 are ignored. -/
theorem test_decode_low_address_bits :
    decode ⟨0x003#16, 1#32⟩ = .ok .scanRow ∧ decode ⟨0x00F#16, 7#32⟩ = .ok (.resPop 7#32) := by
  decide

/-- E1, E2, E3: opcode 6, a reserved bit, opcode 15. -/
theorem test_decode_illegal :
    decode ⟨0x000#16, 0x00000006#32⟩ = .error .illegalCmd ∧
    decode ⟨0x000#16, 0x00000011#32⟩ = .error .illegalCmd ∧
    decode ⟨0x000#16, 0x0000000F#32⟩ = .error .illegalCmd ∧
    decode ⟨0x000#16, 0x80000001#32⟩ = .error .illegalCmd := by decide

theorem test_decode_no_instruction :
    decode ⟨0x010#16, 1#32⟩ = .error (.load .rowLen) ∧
    decode ⟨0x01C#16, 0x1234#32⟩ = .error .readOnly ∧
    decode ⟨0x0FFC#16, 1#32⟩ = .error .noRegister := by decide

/-- The rows of opcode_table.json: the four lines of its CMD words and the two addresses of its BUS rows. -/
theorem test_encode_words :
    (encode .nop).data = 0x00000000#32 ∧ (encode .clearCounts).data = 0x00000005#32 ∧
    (encode (.resPop 9#32)).addr = 0x000C#16 ∧ (encode (.statusW1c 9#32)).addr = 0x0004#16 := by
  decide

/-! ## Small states -/

/-- RAW with the given words from RAW[0] on. -/
def rawOf (ws : List Word) : Memory :=
  (List.zipIdx ws).foldl (fun m p => m.writeWord (rawAddr p.2) p.1) []

/-- The reset state with a row of `len` bits loaded. -/
def rowState (ws : List Word) (len : BitVec 16) : State :=
  { State.reset with raw := rawOf ws, rowLen := len }

/-- The same with the engine at a step, its turn next. -/
def engineAt (e : EngineState) (m : Mode) (s : State) : State :=
  { s with engine := e, mode := m, turns := [.engine] }

/-- The host's next statement is the given one, its turn next. -/
def hostAt (op : HostOp) (s : State) : State := { s with program := [op], turns := [.host] }

/-- A property of the next state, where there is one. -/
def thenB (r : Result) (p : State → Bool) : Bool :=
  match r with
  | .next t => p t
  | .fault _ => false
  | .refused _ => false

/-- E of 95_test_vectors.md: the Manchester encoding of 01 02 03 04 80 64 32 0A FF 00. -/
def rowE : List Word := [0xAAA9AAA6#32, 0xAAA5AA9A#32, 0x6AAA969A#32, 0xA5A6AA66#32, 0x5555AAAA#32]

/-- PROG1's row: the marker, then E; 176 bits. -/
def rowP : List Word :=
  [0x5559AAA9#32, 0xAAA6AAA5#32, 0xAA9A6AAA#32, 0x969AA5A6#32, 0xAA665555#32, 0xAAAA0000#32]

/-- PAYLOAD as DECODE leaves it on E (vector M2). -/
def withPayloadE (s : State) : State :=
  { s with payload0 := 0x01020304#32, payload1 := 0x8064320A#32, payload2 := 0xFF00#16,
           decCount := 80#7, sanityOk := true }

/-! ## One step of each instruction -/

/-- CT1. -/
theorem test_nop : thenB (exec .nop { State.reset with err := .illegalCmd })
    (fun t => t.statusWord == 0x00000004#32) = true := by decide

/-- E7: a NOP during PROG5's scan. -/
theorem test_nop_busy : thenB (exec .nop (engineAt .find .scan State.reset))
    (fun t => t.statusWord == 0x00009201#32) = true := by decide

/-- PROG1, the acceptance of SCAN_ROW; L is above 0 and within ROW_MAX_BITS. -/
theorem test_scan_row : thenB (exec .scanRow (rowState [] 176#16))
    (fun t => t.statusWord == 0x00009001#32) = true := by decide

/-- E4: 1025 > 1024. -/
theorem test_scan_row_bad_len : thenB (exec .scanRow (rowState [] 0x401#16))
    (fun t => t.statusWord == 0x00000300#32) = true := by decide

/-- PROG4, the acceptance of FIND. -/
theorem test_find : thenB (exec .find (rowState [] 184#16))
    (fun t => t.statusWord == 0x00001001#32) = true := by decide

/-- S3, the FIND step: an unaligned match at 3. -/
theorem test_find_step : thenB (step (engineAt .find .single (rowState [0x0AAB2000#32] 19#16)))
    (fun t => t.matchPos == 3#16 && t.statusWord == 0x0000000C#32) = true := by decide +kernel

/-- PROG4, the acceptance of DECODE, FOUND kept. -/
theorem test_decode : thenB (exec .decode { rowState [] 184#16 with found := true })
    (fun t => t.statusWord == 0x00002009#32) = true := by decide

/-- M5, the DECODE step: an invalid pair 40. -/
theorem test_decode_step : thenB (step (engineAt .decode .single (rowState
      [0xAAA9AAA6#32, 0xAAA5AA9A#32, 0x6AAA169A#32, 0xA5A6AA66#32, 0x5555AAAA#32] 160#16)))
    (fun t => t.decCount == 40#7 && t.payload0 == 0x01020304#32 && t.payload1 == 0x80000000#32 &&
      t.payload2 == 0#16 && t.sanityFailCount == 1#32 && t.statusWord == 0x00000004#32) = true := by
  decide +kernel

/-- M9, the other convention. -/
theorem test_decode_step_first_bit : thenB (step (engineAt .decode .single
      { rowState rowE 160#16 with params := { manchConv := .firstBit } }))
    (fun t => t.decCount == 80#7 && t.payload0 == 0xFEFDFCFB#32 && t.payload1 == 0x7F9BCDF5#32 &&
      busRead t 0x02C#16 == 0x00FF0000#32 && t.statusWord == 0x00000014#32) = true := by
  decide +kernel

/-- E6 and X7: EXTRACT right after reset. -/
theorem test_extract_no_payload : thenB (exec .extract State.reset)
    (fun t => t.statusWord == 0x00000400#32) = true := by decide

/-- X5, the EXTRACT step: ROW_IDX 5, MATCH_POS 160. -/
theorem test_extract_step : thenB (step (engineAt .extract .single { State.reset with
      payload0 := 0xDEADBEEF#32, payload1 := 0xA5123456#32, payload2 := 0x78EE#16,
      rowIdx := 5#8, matchPos := 160#16, sanityOk := true }))
    (fun t => t.resId == 0xDEADBEEF#32 && busRead t 0x034#16 == 0x000000A5#32 &&
      t.resData == 0x78563412#32 && busRead t 0x03C#16 == 0x000500A0#32 &&
      t.readingCount == 1#32 && t.statusWord == 0x00000016#32) = true := by decide +kernel

/-- CT4: both counters to 0, DONE = 1, RES_VALID unchanged. -/
theorem test_clear_counts : thenB (exec .clearCounts
      { State.reset with readingCount := 1#32, sanityFailCount := 7#32, resValid := true })
    (fun t => t.readingCount == 0#32 && t.sanityFailCount == 0#32 && t.done && t.resValid) = true :=
  by decide

/-- CT5. -/
theorem test_res_pop : thenB (exec (.resPop 0#32)
      { State.reset with resValid := true, resId := 0x01020304#32 })
    (fun t => !t.resValid && t.resId == 0x01020304#32) = true := by decide

/-- CT2: no effect. -/
theorem test_status_zero : thenB (exec (.statusW1c 0#32) { State.reset with done := true })
    (fun t => t.statusWord == 0x00000004#32) = true := by decide

/-- CT3: DONE cleared. -/
theorem test_status_w1c : thenB (exec (.statusW1c 4#32) { State.reset with done := true })
    (fun t => t.statusWord == 0x00000000#32) = true := by decide

/-! ## Engine steps of a scan, bus writes and reads -/

/-- PROG1, the FIND step. -/
theorem test_scan_find_step : thenB (step (engineAt .find .scan (rowState rowP 176#16)))
    (fun t => t.statusWord == 0x0000A009#32 && t.matchPos == 0#16) = true := by decide +kernel

/-- PROG1, the DECODE step. -/
theorem test_scan_decode_step : thenB (step (engineAt .decode .scan
      { rowState rowP 176#16 with found := true }))
    (fun t => t.statusWord == 0x0000B019#32 && t.decCount == 80#7 && t.payload0 == 0x01020304#32 &&
      t.payload1 == 0x8064320A#32) = true := by decide +kernel

/-- PROG1, the EXTRACT step: the scan resumes SCAN_STEP = 2 bits after the match (R166). -/
theorem test_scan_extract_step : thenB (step (engineAt .extract .scan
      (withPayloadE { State.reset with found := true })))
    (fun t => t.statusWord == 0x0000901B#32 && t.scanPos == 2 && t.resId == 0x01020304#32 &&
      busRead t 0x034#16 == 0x00000080#32 && t.resData == 0xFF0A3264#32) = true := by decide +kernel

/-- PROG2: with RES_VALID = 1 the EXTRACT step is held. -/
theorem test_hold : thenB (step (engineAt .extract .scan
      (withPayloadE { State.reset with found := true, resValid := true })))
    (fun t => t.statusWord == 0x0000B01B#32 && t.readingCount == 0#32) = true := by decide

/-- CT6: irq = 1 at once. -/
theorem test_irq_en : thenB (busWrite 0x008#16 3#32 { State.reset with done := true })
    (fun t => t.irq) = true := by decide

/-- E8 and E14 on RAW[0] and ROW_LEN: ignored while busy, ERR = 2. -/
theorem test_busy_guard :
    thenB (busWrite 0x1000#16 0#32 (engineAt .find .scan (rowState rowP 0xB0#16)))
      (fun t => t.err == .busy && busRead t 0x1000#16 == 0x5559AAA9#32) = true ∧
    thenB (busWrite 0x010#16 0x10#32 (engineAt .find .scan (rowState [] 0xB0#16)))
      (fun t => t.err == .busy && t.rowLen == 0xB0#16) = true := by decide +kernel

/-- E11 and E14: an idle operand write leaves ERR, and address bits 1:0 are ignored. -/
theorem test_operand_write : thenB (busWrite 0x0012#16 0x2#32 { State.reset with err := .noPayload })
    (fun t => t.rowLen == 2#16 && t.err == .noPayload) = true := by decide

/-- E9 and E10: BUSY before ILLEGAL_CMD, ILLEGAL_CMD before BAD_LEN and NO_PAYLOAD. -/
theorem test_priority :
    thenB (busWrite 0x000#16 0x11#32 (engineAt .find .scan State.reset))
      (fun t => t.statusWord == 0x00009201#32) = true ∧
    thenB (busWrite 0x000#16 0x14#32 (rowState [] 0x401#16)) (fun t => t.err == .illegalCmd) = true
    := by decide

/-- E13 and CT8. -/
theorem test_reads :
    busRead State.reset 0x0050#16 = 0#32 ∧ busRead State.reset 0x1400#16 = 0#32 ∧
    busRead State.reset 0x048#16 = 0x00000400#32 ∧ busRead State.reset 0x04C#16 = 0x00025559#32 := by
  decide

/-- Treatment (b) of U1: a FIND over a row that nothing has written. -/
theorem test_unwritten_row : exec .find { rowState [] 1#16 with
      params := { rawTreatment := .unwrittenFaults } } = .fault .unwrittenRow := rfl

/-- R89: the pseudo-instructions. -/
theorem test_pseudo_instructions :
    loadRow [7#32, 8#32] = [.write 0x1000#16 7#32, .write 0x1004#16 8#32] ∧
    popResult = .write 0x000C#16 0#32 ∧ clrDone = .write 0x0004#16 4#32 ∧
    cmd .scanRow = .write 0x0000#16 1#32 ∧
    readResult = [.read 0x0030#16, .read 0x0034#16, .read 0x0038#16, .read 0x003C#16] := by decide

/-- The write of a byte keeps the addresses rising, and writing in any order gives one memory. -/
theorem test_memory_canonical :
    (Memory.write (Memory.write [] 5 1#8) 3 2#8) = Memory.write (Memory.write [] 3 2#8) 5 1#8 ∧
    (Memory.write (Memory.write [] 5 1#8) 3 2#8).wf = true := by decide

/-! ## Witnesses of the statements' hypotheses -/

theorem witness_instr_wf : (Instr.resPop 0xFFFFFFFF#32).wf = true ∧ Instr.scanRow.wf = true := by
  decide

theorem witness_table_rows :
    decode ⟨0x00F#16, 0xFFFFFFFF#32⟩ = .ok (.resPop 0xFFFFFFFF#32) ∧
    (∃ r ∈ opcodeTable, r.accepts ⟨0x003#16, 5#32⟩ = true) ∧
    ((0x003#16 &&& 0xFFFC#16 = 0x000#16) ∧
      ∀ r ∈ opcodeTable, r.accepts ⟨0x003#16, 6#32⟩ = false) := by decide

theorem witness_step_runs :
    (hostAt (.write 0x000#16 2#32) State.reset).nextTurn = .host ∧
    (hostAt (.write 0x000#16 2#32) State.reset).program = .write 0x000#16 2#32 :: [] ∧
    decode ⟨0x000#16, 2#32⟩ = .ok .find ∧ decodeTableWord 32 5 = some .clearCounts := by decide

theorem witness_idle_and_busy :
    State.reset.engine = .idle ∧ (engineAt .extract .scan State.reset).engine ≠ .idle ∧
    BitVec.extractLsb' 4 28 0x10#32 ≠ 0#28 ∧ BitVec.extractLsb' 4 28 0x80000000#32 ≠ 0#28 := by
  decide

theorem witness_res_pop :
    State.reset.resValid = false ∧
    (engineAt .extract .single State.reset).engine = .extract ∧
    exec (.resPop 1#32) (engineAt .extract .single State.reset) =
      .next (engineAt .extract .single State.reset).pop := ⟨by decide, by decide, rfl⟩

theorem witness_status_write :
    BitVec.getLsbD 0x00000004#32 2 = true ∧ BitVec.getLsbD 0xFFFFFFFB#32 2 = false := by decide

/-- A row of the given length, START beyond it, the engine's turn scheduled. -/
def rowAndStart (len : BitVec 16) : State :=
  { rowState [] len with turns := [.engine], start := 0xFFFF#16 }

/-- FIND, DECODE and SCAN_ROW at the two ends of the legal lengths. -/
theorem witness_row_commands :
    ((rowAndStart 0#16).engine = .idle ∧
      (rowAndStart 0#16).len ≤ (rowAndStart 0#16).params.rowMaxBits ∧
      (rowAndStart 0#16).rowReadable = true ∧ (rowAndStart 0#16).turns = .engine :: []) ∧
    ((rowAndStart 1024#16).engine = .idle ∧
      (rowAndStart 1024#16).len = (rowAndStart 1024#16).params.rowMaxBits ∧
      (rowAndStart 1024#16).rowReadable = true ∧ (rowAndStart 1024#16).turns = .engine :: []) :=
  ⟨⟨rfl, by decide, rfl, rfl⟩, rfl, by decide, rfl, rfl⟩

/-- Under treatment (b) a row that was written may be read. -/
theorem witness_row_written : State.rowReadable { rowState [0#32] 32#16 with
    params := { rawTreatment := .unwrittenFaults } } = true := by decide

/-- DECODE's bits on E: all eighty. -/
theorem witness_decode_bits :
    (manch Params.default.manchConv (rowState rowE 160#16).rowBit 160 0).length = 80 := by
  decide +kernel

/-- A payload, a free slot, the engine's turn scheduled. -/
def extractStart : State := { withPayloadE State.reset with turns := [.engine] }

theorem witness_extract :
    extractStart.engine = .idle ∧ extractStart.sanityOk = true ∧ extractStart.resValid = false ∧
    extractStart.turns = .engine :: [] ∧ State.reset.sanityOk = false := by decide

/-- PROG1's row one bit short, the engine's turn scheduled. -/
def shortStart : State := { rowState rowP 175#16 with turns := [.engine] }

theorem witness_short_row :
    shortStart.engine = .idle ∧ shortStart.len ≤ shortStart.params.rowMaxBits ∧
    shortStart.rowReadable = true ∧ shortStart.len < 176 ∧ shortStart.turns = .engine :: [] := by
  decide

/-- The frame: an instruction that answers next, for each clause. -/
theorem witness_frame :
    exec .nop State.reset = .next State.reset.accept.setDone ∧
    exec (.statusW1c 0#32) State.reset = .next State.reset ∧
    exec (.resPop 0#32) State.reset = .next State.reset.pop ∧
    exec .nop (engineAt .find .scan State.reset) =
      .next ((engineAt .find .scan State.reset).reject .busy) := ⟨rfl, rfl, rfl, rfl⟩

/-- CMD addresses with every low bit, and a legal and an illegal word at the border, on an idle block. -/
theorem witness_cmd_write :
    0x000#16 &&& 0xFFFC#16 = 0x000#16 ∧ 0x003#16 &&& 0xFFFC#16 = 0x000#16 ∧
    State.reset.rowReadable = true ∧ 6 ≤ (BitVec.extractLsb' 0 4 0x6#32).toNat ∧
    (hostAt (.write 0x003#16 6#32) State.reset).nextTurn = .host ∧
    (hostAt (.write 0x003#16 6#32) State.reset).program = .write 0x003#16 6#32 :: [] ∧
    (hostAt (.write 0x003#16 6#32) State.reset).engine = .idle := by decide

theorem witness_bad_len :
    (rowState [] 1025#16).params.rowMaxBits < (rowState [] 1025#16).len ∧
    (rowState [] 1025#16).engine = .idle ∧ Instr.find ∈ [Instr.scanRow, .find, .decode] ∧
    Instr.extract ∈ [Instr.nop, .extract, .clearCounts] ∧ State.reset.err ≠ .badLen ∧
    exec .extract State.reset = .next (State.reset.reject .noPayload) :=
  ⟨by decide, by decide, by decide, by decide, by decide, rfl⟩

/-- The fault of treatment (b), with all that its clause says of the step. -/
theorem witness_unwritten :
    ∃ s : State, s = { rowState [] 1#16 with params := { rawTreatment := .unwrittenFaults } } ∧
      s.engine = .idle ∧ s.len ≤ s.params.rowMaxBits ∧
      s.params.rawTreatment = .unwrittenFaults ∧ s.rowWritten = false ∧
      (hostAt (cmd .decode) s).nextTurn = .host ∧
      (hostAt (cmd .decode) s).program = .write 0x000#16 3#32 :: [] ∧
      decode ⟨0x000#16, 3#32⟩ = .ok .decode ∧
      step (hostAt (cmd .decode) s) = .fault .unwrittenRow :=
  ⟨_, rfl, by decide, by decide, by decide, by decide, rfl, rfl, rfl, rfl⟩

/-! ### Scanner and decoder -/

/-- A row that is the default marker from offset 0 on. -/
def markerRow (k : Nat) : Bool := (0x5559#16).getLsbD (15 - k)

theorem witness_search :
    (∃ m, 0 ≤ m ∧ m + 16 ≤ 16 ∧ ∀ i < 16, markerRow (m + i) = (0x5559#16).getLsbD (15 - i)) ∧
    (¬ ∃ m, 0 ≤ m ∧ m + 16 ≤ 15 ∧ ∀ i < 16, markerRow (m + i) = (0x5559#16).getLsbD (15 - i)) := by
  refine ⟨⟨0, by decide⟩, ?_⟩
  rintro ⟨m, -, hm, -⟩
  omega

/-- S7.0: two default markers, 14 apart. -/
theorem witness_overlap : ∃ (row : Nat → Bool) (m d : Nat), 1 ≤ d ∧ d ≤ 15 ∧
    (∀ i < 16, row (m + i) = (0x5559#16).getLsbD (15 - i)) ∧
    (∀ i < 16, row (m + d + i) = (0x5559#16).getLsbD (15 - i)) :=
  ⟨fun k => (0x55595564#32).getLsbD (31 - k), 0, 14, by decide⟩

/-- S12: one differing bit, the last one. -/
theorem witness_mismatch :
    (15 : Nat) < 16 ∧ (fun k => markerRow k != (k == 15)) (0 + 15) ≠ (0x5559#16).getLsbD (15 - 15) ∧
    matchesAt markerRow 0x5559#16 0 = true := by decide

/-- A row of alternating bits: every pair valid. -/
def validRow (k : Nat) : Bool := k % 2 == 1

/-- The closed form's premises with the last pair of a short row (s + 159 = L), and with an invalid pair 40. -/
theorem witness_count :
    (∀ i < 79, i < 80 → validRow (0 + 2 * i) ≠ validRow (0 + 2 * i + 1)) ∧
    79 = min 80 (if 0 ≤ 159 then (159 - 0) / 2 else 0) ∧
    (∀ i < 80, i < 40 → (fun k => validRow k && k != 81) (0 + 2 * i) ≠
      (fun k => validRow k && k != 81) (0 + 2 * i + 1)) ∧
    (40 < 80 ∧ (fun k => validRow k && k != 81) (0 + 2 * 40) =
      (fun k => validRow k && k != 81) (0 + 2 * 40 + 1)) := by decide

/-- A DECODE step that fails (M1c). -/
theorem witness_failed_decode :
    (engineAt .decode .single (rowState [0x2AAAAAAA#32] 32#16)).nextTurn = .engine ∧
    (engineAt .decode .single (rowState [0x2AAAAAAA#32] 32#16)).engine = .decode ∧
    thenB (step (engineAt .decode .single (rowState [0x2AAAAAAA#32] 32#16)))
      (fun t => !t.sanityOk) = true := by decide +kernel

theorem witness_decoded_bit : 79 < (manch .secondBit validRow 160 0).length ∧
    ¬ 79 < (manch .secondBit validRow 159 0).length := by decide +kernel

/-- The encoding of eighty ones under each convention. -/
theorem witness_encoding :
    (List.replicate 80 true).length = 80 ∧ 0 + 160 ≤ 160 ∧
    (∀ i < 80, validRow (0 + 2 * i) = (if ManchConv.secondBit = .firstBit
        then (List.replicate 80 true).getD i false else !(List.replicate 80 true).getD i false) ∧
      validRow (0 + 2 * i + 1) = (if ManchConv.secondBit = .firstBit
        then !(List.replicate 80 true).getD i false else (List.replicate 80 true).getD i false)) ∧
    (∀ i < 80, (!validRow (0 + 2 * i)) = (if ManchConv.firstBit = .firstBit
        then (List.replicate 80 true).getD i false else !(List.replicate 80 true).getD i false) ∧
      (!validRow (0 + 2 * i + 1)) = (if ManchConv.firstBit = .firstBit
        then !(List.replicate 80 true).getD i false else (List.replicate 80 true).getD i false)) := by
  decide +kernel

/-- Each engine step in each mode, its turn next. -/
theorem witness_engine_steps :
    ∀ e ∈ [EngineState.find, .decode, .extract], ∀ m ∈ [Mode.single, .scan],
      (engineAt e m State.reset).nextTurn = .engine ∧ (engineAt e m State.reset).engine = e ∧
      (engineAt e m State.reset).mode = m ∧ (engineAt e m State.reset).resValid = false ∧
      State.nextTurn { engineAt e m State.reset with resValid := true } = .engine ∧
      step (engineAt e m State.reset) = .next (engineStep (engineAt e m State.reset).dropTurn) := by
  intro e he m hm
  exact ⟨rfl, rfl, rfl, rfl, rfl, step_engine rfl⟩

theorem witness_full_decode : (List.replicate 80 true).length = 80 := by decide

/-- Both branches of the SCAN-mode FIND and DECODE steps are reached, at m + 176 = L and one bit short of it. -/
theorem witness_scan_branches :
    search (rowState rowP 176#16).rowBit 0x5559#16 176 0 + 176 ≤ 176 ∧
    175 < search (rowState rowP 175#16).rowBit 0x5559#16 175 0 + 176 ∧
    (manch .secondBit validRow 176 16).length = 80 ∧
    (manch .secondBit (fun _ => false) 176 16).length ≠ 80 := by decide +kernel

/-! ### The invariant -/

/-- A SCAN_ROW of PROG1's row between its FIND and its DECODE step. -/
def scanDecode : State := engineAt .decode .scan { rowState rowP 176#16 with found := true }

/-- The same scan before its EXTRACT step. -/
def scanExtract : State := engineAt .extract .scan (withPayloadE { rowState rowP 176#16 with
  found := true })

theorem rowP_inWindow : ∀ c ∈ rawOf rowP, rawBase ≤ c.1 ∧ c.1 < rawBase + 1024 / 8 := by
  decide +kernel

theorem witness_inv_decode : scanDecode.Inv ∧ scanDecode.nextTurn = .engine ∧
    scanDecode.engine = .decode ∧ scanDecode.mode = .scan :=
  ⟨⟨by decide, by decide +kernel, rowP_inWindow, by decide, by decide, by decide, by decide,
    by decide, by decide, by decide, by decide⟩, rfl, rfl, rfl⟩

theorem witness_inv_extract : scanExtract.Inv ∧ scanExtract.nextTurn = .engine ∧
    scanExtract.engine = .extract ∧ scanExtract.mode = .scan :=
  ⟨⟨by decide, by decide +kernel, rowP_inWindow, by decide, by decide, by decide, by decide,
    by decide, by decide, by decide, by decide⟩, rfl, rfl, rfl⟩

/-- The FIND step of PROG1 goes on to DECODE. -/
theorem witness_scan_advances : thenB (step (engineAt .find .scan (rowState rowP 176#16)))
    (fun t => t.engine == .decode) = true := by decide +kernel

/-- PROG1's row with a host that pops after every engine step. -/
def scanStart : State :=
  { rowState rowP 176#16 with
    turns := (List.replicate 4 [Turn.engine, Turn.host]).flatten
    program := List.replicate 4 popResult }

theorem witness_scan_bound :
    scanStart.params.wf = true ∧ scanStart.engine = .idle ∧
    scanStart.len ≤ scanStart.params.rowMaxBits ∧ scanStart.rowReadable = true ∧
    scanStart.resValid = false ∧
    (1 : Nat) = (if 176 ≤ scanStart.len
      then (scanStart.len - 176) / scanStart.params.scanStep + 1 else 0) ∧
    3 * 1 + 1 ≤ 4 ∧
    scanStart.turns = (List.replicate 4 [Turn.engine, Turn.host]).flatten ∧
    scanStart.program = List.replicate 4 popResult := by decide

/-- PROG1's row with four engine turns scheduled. -/
def packetStart : State :=
  { rowState rowP 176#16 with turns := [.engine, .engine, .engine, .engine] }

theorem witness_one_packet : ∃ d : List Bool, packetStart.engine = .idle ∧
    packetStart.params.wf = true ∧ packetStart.len = 176 ∧
    packetStart.len ≤ packetStart.params.rowMaxBits ∧ packetStart.rowReadable = true ∧
    packetStart.resValid = false ∧
    matchesAt packetStart.rowBit packetStart.params.marker 0 = true ∧ d.length = 80 ∧
    (∀ i < 80, packetStart.rowBit (16 + 2 * i) ≠ packetStart.rowBit (16 + 2 * i + 1) ∧
      d.getD i false = decodeBit packetStart.params.manchConv (packetStart.rowBit (16 + 2 * i))
        (packetStart.rowBit (16 + 2 * i + 1))) ∧
    packetStart.turns = [.engine, .engine, .engine, .engine] ++ [] :=
  ⟨packetStart.manchAt 16, rfl, by decide, rfl, by decide, by decide, rfl, by decide +kernel,
    by decide +kernel, by decide +kernel, rfl⟩

/-! ### Bus, reset and whole-machine statements -/

theorem witness_read :
    (hostAt (.read 0x004#16) State.reset).nextTurn = .host ∧
    (hostAt (.read 0x004#16) State.reset).program = .read 0x004#16 :: [] ∧
    (hostAt .waitIdle State.reset).program = .waitIdle :: [] ∧
    (hostAt .waitEvent (engineAt .find .scan State.reset)).program = .waitEvent :: [] := by decide

theorem witness_params : State.reset.params.wf = true ∧ State.reset.params = Params.default ∧
    Params.wf { rowMaxBits := 32768, scanStep := 16, manchConv := .firstBit } = true := by decide

/-- The two ends of each address range of R51, R68 and R53, on an idle and on a busy block. -/
theorem witness_addresses :
    (0x01C ≤ (0x01C#16).toNat ∧ (0x04F#16).toNat < 0x050) ∧
    (0x050 ≤ (0x0050#16).toNat ∧ (0x0FFF#16).toNat < 0x1000) ∧
    (0x1000 + State.reset.params.rowMaxBits / 8 ≤ (0x1080#16).toNat) ∧
    (0x1000 + State.reset.params.rowMaxBits / 8 ≤ (0xFFFF#16).toNat) ∧
    (0x010 ≤ (0x010#16).toNat ∧ (0x01B#16).toNat < 0x01C) ∧
    (0x1000 ≤ (0x1000#16).toNat ∧
      (0x107F#16).toNat < 0x1000 + State.reset.params.rowMaxBits / 8) ∧
    (0x003#16).toNat < 0x004 ∧ (0x004 ≤ (0x004#16).toNat ∧ (0x007#16).toNat < 0x008) ∧
    (0x008 ≤ (0x008#16).toNat ∧ (0x00B#16).toNat < 0x00C) ∧
    (0x00C ≤ (0x00C#16).toNat ∧ (0x00F#16).toNat < 0x010) ∧
    scanDecode.engine ≠ .idle ∧ scanDecode.params.wf = true := by decide

/-- The last word of the default window, and a bit index on each side of it. -/
theorem witness_raw_word :
    State.reset.params.wf = true ∧ State.reset.engine = .idle ∧
    32 * 31 < State.reset.params.rowMaxBits ∧ (31 : Nat) < 32 ∧
    0x1000 + 4 * 31 - 1 < 0x1000 + 4 * 31 ∧ 0x1000 + 4 * 31 + 4 ≤ 0x1080 ∧ 991 / 32 ≠ 31 := by
  decide

theorem witness_reset :
    State.nextTurn { scanExtract with turns := [.reset] } = .reset ∧
    State.nextTurn { scanExtract with turns := [.powerOn] } = .powerOn := by decide

theorem witness_interrupt :
    Instr.find ∈ [Instr.scanRow, .find, .decode, .extract] ∧
    exec .find State.reset = .next (State.reset.startEngine .single .find) ∧
    (State.reset.startEngine .single .find).err = .none ∧
    exec (.resPop 0#32) State.reset = .next State.reset.pop ∧
    busWrite 0x008#16 3#32 State.reset = .next { State.reset with irqEn := 3#2 } :=
  ⟨by decide, rfl, rfl, rfl, rfl⟩

/-- A host step, an engine step and a read while a command runs. -/
theorem witness_running :
    (hostAt (.read 0x004#16) scanDecode).engine ≠ .idle ∧
    (hostAt (.read 0x004#16) scanDecode).nextTurn ≠ .reset ∧
    (hostAt (.read 0x004#16) scanDecode).nextTurn ≠ .powerOn ∧
    (∃ t, step (hostAt (.read 0x004#16) scanDecode) = .next t) ∧
    (∃ t, step scanDecode = .next t) := ⟨by decide, by decide, by decide, ⟨_, rfl⟩, ⟨_, rfl⟩⟩

/-- Two states that differ in a bit of RAW at offset L. -/
theorem witness_beyond_row : ∃ s s' : State, s' = { s with raw := s'.raw } ∧ s'.raw ≠ s.raw ∧
    (∀ k < s.len, s'.rowBit k = s.rowBit k) ∧ s.nextTurn = .engine :=
  ⟨engineAt .find .single (rowState [0x55590000#32] 16#16),
    engineAt .find .single (rowState [0x55598000#32] 16#16), rfl, by decide +kernel,
    by decide +kernel, rfl⟩

/-- Two states with one row and different histories, in each mode. -/
theorem witness_history :
    ∀ m ∈ [Mode.single, .scan], ∃ s s' : State, s.nextTurn = .engine ∧ s'.nextTurn = .engine ∧
      s.engine = .decode ∧ s'.engine = .decode ∧ s.mode = m ∧ s'.mode = s.mode ∧
      s'.rowLen = s.rowLen ∧ s'.params.manchConv = s.params.manchConv ∧
      (∀ k < s.len, s'.rowBit k = s.rowBit k) ∧ s'.start = s.start ∧ s'.matchPos = s.matchPos ∧
      s'.payload0 ≠ s.payload0 ∧ s'.readingCount ≠ s.readingCount ∧
      (∃ t, step s = .next t) ∧ (∃ t, step s' = .next t) := by
  intro m _
  exact ⟨engineAt .decode m (rowState rowE 160#16),
    engineAt .decode m { rowState rowE 160#16 with payload0 := 1#32, readingCount := 1#32 },
    rfl, rfl, rfl, rfl, rfl, rfl, rfl, rfl, fun _ _ => rfl, rfl, rfl,
    (by decide : (1#32 : Word) ≠ 0#32), (by decide : (1#32 : Word) ≠ 0#32),
    ⟨_, step_engine rfl⟩, ⟨_, step_engine rfl⟩⟩

/-- RES_VALID rises at an EXTRACT step, falls at a pop at the last address of RES_POP's word and at a reset, and stays at
a hold. -/
theorem witness_result_slot :
    (scanExtract.resValid = false ∧ thenB (step scanExtract) (fun t => t.resValid) = true) ∧
    thenB (step (hostAt popResult { State.reset with resValid := true })) (fun t => !t.resValid) =
      true ∧
    thenB (step (hostAt (.write 0x00F#16 1#32) { State.reset with resValid := true }))
      (fun t => !t.resValid) = true ∧
    thenB (step { scanExtract with resValid := true, turns := [.reset] }) (fun t => !t.resValid) =
      true ∧
    thenB (step { scanExtract with resValid := true }) (fun t => t.resValid) = true := by
  decide +kernel

/-- DONE rises at an acceptance and at a final step, and falls at an acceptance and at a STATUS write. -/
theorem witness_done :
    thenB (step (hostAt (cmd .nop) State.reset)) (fun t => t.done) = true ∧
    thenB (step (engineAt .extract .single (withPayloadE State.reset)))
      (fun t => t.done && t.engine == .idle) = true ∧
    thenB (step (hostAt (cmd .find) { State.reset with done := true })) (fun t => !t.done) = true ∧
    thenB (step (hostAt clrDone { State.reset with done := true })) (fun t => !t.done) = true := by
  decide +kernel

/-- A step that writes FOUND, one that writes SANITY_OK, and steps that write ERR under the guard, at a register and at the
last byte of the RAW window. -/
theorem witness_flag_writers :
    thenB (step (engineAt .find .scan (rowState rowP 176#16))) (fun t => t.found) = true ∧
    thenB (step scanDecode) (fun t => t.sanityOk) = true ∧
    thenB (step (hostAt (wr .rowLen 1#32) scanDecode)) (fun t => t.err == .busy) = true ∧
    thenB (step (hostAt (.write 0x107F#16 1#32) scanDecode)) (fun t => t.err == .busy) = true ∧
    scanDecode.params.wf = true := by
  decide +kernel

/-- The counters move (X10 of 95_test_vectors.md): an EXTRACT step and a DECODE step that fails each wrap theirs from
0xFFFFFFFF to 0; CLEAR_COUNTS and a reset clear both. -/
theorem witness_counters :
    (thenB (step (engineAt .extract .single
        { withPayloadE State.reset with readingCount := 0xFFFFFFFF#32 }))
      (fun t => t.readingCount == 0#32)) = true ∧
    (thenB (step (engineAt .decode .single { State.reset with sanityFailCount := 0xFFFFFFFF#32 }))
      (fun t => !t.sanityOk && t.sanityFailCount == 0#32)) = true ∧
    (thenB (step (hostAt (cmd .clearCounts)
        { State.reset with readingCount := 7#32, sanityFailCount := 7#32 }))
      (fun t => t.readingCount == 0#32 && t.sanityFailCount == 0#32)) = true ∧
    (thenB (step { State.reset with
        readingCount := 7#32, sanityFailCount := 7#32, turns := [.powerOn] })
      (fun t => t.readingCount == 0#32 && t.sanityFailCount == 0#32)) = true := by
  decide +kernel

/-- A schedule that is used up with the engine enabled. -/
theorem witness_schedule :
    (∃ u, core.run (hostAt (.read 0x004#16) scanDecode).turns.length
        (hostAt (.read 0x004#16) scanDecode) = .next u ∧ u.engineEnabled = true) :=
  ⟨_, rfl, rfl⟩

end Sys2Proof.Tests
end

namespace Sys2Proof

/-! ## Which bus address is which register, and what a write there decodes to -/

/-- A register answers at the four byte addresses of its word (R66). -/
theorem regAt_of_range {a : BusAddr} (r : Reg) (lo : r.addr.toNat ≤ a.toNat)
    (hi : a.toNat < r.addr.toNat + 4) : regAt a = some r := by
  have aligned : r.addr.toNat % 4 = 0 := by cases r <;> rfl
  rw [regAt_iff, ← BitVec.toNat_inj, wordAddr_toNat]
  omega

/-- Only the four byte addresses of its word are a register (R66). -/
theorem regAt_range {a : BusAddr} {r : Reg} (h : regAt a = some r) :
    r.addr.toNat ≤ a.toNat ∧ a.toNat < r.addr.toNat + 4 := by
  have := congrArg BitVec.toNat (regAt_eq_some h)
  rw [wordAddr_toNat] at this
  omega

/-- The register a storing write goes to (R184, R185). -/
def LoadReg.reg : LoadReg → Reg
  | .irqEn => .irqEn
  | .rowLen => .rowLen
  | .start => .start
  | .rowIdx => .rowIdx

theorem decode_status {a : BusAddr} (h : regAt a = some .status) (v : Word) :
    decode ⟨a, v⟩ = .ok (.statusW1c v) := by simp [decode, h]

theorem decode_resPop {a : BusAddr} (h : regAt a = some .resPop) (v : Word) :
    decode ⟨a, v⟩ = .ok (.resPop v) := by simp [decode, h]

theorem decode_load {a : BusAddr} {r : LoadReg} (h : regAt a = some r.reg) (v : Word) :
    decode ⟨a, v⟩ = .error (.load r) := by cases r <;> simp [decode, h, LoadReg.reg]

theorem decode_noRegister {a : BusAddr} (h : regAt a = none) (v : Word) :
    decode ⟨a, v⟩ = .error .noRegister := by simp [decode, h]

/-- A write that decodes is a command written to CMD, or goes to one of the two bus rows (R91). -/
theorem decode_eq_ok {a : BusAddr} {v : Word} {i : Instr} (h : decode ⟨a, v⟩ = .ok i) :
    (regAt a = some .cmd ∧ decodeCmd v = some i) ∨
    (regAt a = some .status ∧ i = .statusW1c v) ∨ (regAt a = some .resPop ∧ i = .resPop v) := by
  unfold decode at h
  split at h
  · next hr =>
    split at h
    · next hc => cases h; exact .inl ⟨hr, hc⟩
    · cases h
  · next hr => cases h; exact .inr (.inl ⟨hr, rfl⟩)
  · next hr => cases h; exact .inr (.inr ⟨hr, rfl⟩)
  all_goals cases h

theorem decode_eq_illegalCmd {a : BusAddr} {v : Word}
    (h : decode ⟨a, v⟩ = .error .illegalCmd) : regAt a = some .cmd := by
  unfold decode at h
  split at h
  · next hr => exact hr
  all_goals cases h

theorem decode_eq_load {a : BusAddr} {v : Word} {r : LoadReg}
    (h : decode ⟨a, v⟩ = .error (.load r)) : regAt a = some r.reg := by
  unfold decode at h
  split at h
  · split at h <;> cases h
  all_goals cases h <;> assumption

end Sys2Proof

namespace Sys2Proof.Machine

/-- The legal values of R7, as bounds. -/
theorem Params.bounds_of_wf {p : Params} (h : p.wf = true) :
    p.rowMaxBits % 32 = 0 ∧ p.rowMaxBits ≤ 32768 ∧ 1 ≤ p.scanStep ∧ p.scanStep ≤ 16 := by
  simp only [Params.wf, Params.rowMaxBitsOk, Params.scanStepOk, Bool.and_eq_true,
    decide_eq_true_eq] at h
  omega

/-! ## The invariant under the state's operations (O51)

Each lemma names the fields of the invariant its operation bears on; the others it takes over from `h`, since the
operation leaves what they speak of as it was. -/

/-- The host's own data are no part of the invariant. -/
theorem State.Inv.hostData {s : State} (h : s.Inv) (program : List HostOp) (noted : List Word)
    (turns : List Turn) :
    { s with program := program, noted := noted, turns := turns : State }.Inv := { h with }

theorem State.Inv.dropTurn {s : State} (h : s.Inv) : s.dropTurn.Inv := { h with }

theorem State.Inv.reject {s : State} (h : s.Inv) (c : ErrCode) : (s.reject c).Inv := { h with }

/-- The final step of a command: an idle engine owes nothing but what holds of the data. -/
theorem State.Inv.finish {s : State} (h : s.Inv) : s.finish.Inv :=
  { h with
    done_of_busy := nofun
    len_of_reading := nofun
    payload_of_extract := nofun
    room_of_scan := fun _ he => by simp at he }

theorem State.Inv.writeMatch {s : State} (h : s.Inv) (he : s.engine = .find) (m : Nat) :
    (s.writeMatch m).Inv :=
  { h with room_of_scan := fun _ hp => by simp [he] at hp }

/-- A decode of at most 80 bits leaves SANITY_OK to say whether DEC_COUNT is 80 (R27). -/
theorem State.Inv.writeDecode {s : State} {d : List Bool} (h : s.Inv) (he : s.engine = .decode)
    (hd : d.length ≤ 80) : (s.writeDecode d).Inv :=
  { h with
    decCount_le := (State.writeDecode_count hd).trans_le hd
    sanity_iff := by rw [State.writeDecode_count hd]; simp
    payload_of_extract := fun hx => by simp [he] at hx }

/-- The INTEGRITY field of a reading is the upper part of RES_FLAGS, written as Unverified (R146). -/
theorem State.Inv.emit {s : State} (h : s.Inv) : s.emit.Inv :=
  { h with
    integrity := BitVec.extractLsb'_append_eq_left }

/-- The search goes on less than 2^16 + 16 bits into the row (R45, R166). -/
theorem State.Inv.resumeScan {s : State} (h : s.Inv) (hb : s.busy = true) (hm : s.mode = .scan) :
    s.resumeScan.Inv :=
  { h with
    scanPos_lt := by
      obtain ⟨-, -, -, step_le⟩ := Params.bounds_of_wf h.params_wf
      have := s.matchPos.isLt
      simp only [State.resumeScan_scanPos, State.resumeOfs, State.matchOfs]
      omega
    done_of_busy := fun _ => h.done_of_busy hb
    len_of_reading := fun _ _ => h.len_of_reading hb (.inr hm)
    payload_of_extract := nofun
    room_of_scan := fun _ he => by simp at he }

/-! ### The engine's steps -/

theorem State.Inv.findSingle {s : State} (h : s.Inv) (he : s.engine = .find) :
    (findSingle s).Inv := (h.writeMatch he _).finish

/-- A SCAN-mode search goes on only with room for a packet behind its match (R163, R168). -/
theorem State.Inv.findScan {s : State} (h : s.Inv) (he : s.engine = .find) : (findScan s).Inv := by
  have hm := h.writeMatch he (s.searchFor s.scanPos)
  have hb : s.busy = true := s.busy_iff.mpr (by simp [he])
  rcases findScan_cases s with ⟨room, e⟩ | ⟨_, e⟩ <;> rw [e]
  · have match_eq : (s.writeMatch (s.searchFor s.scanPos)).matchOfs = s.searchFor s.scanPos :=
      State.writeMatch_matchOfs (s.searchFor_le _)
    exact { hm with
      done_of_busy := fun _ => h.done_of_busy hb
      len_of_reading := fun _ _ => h.len_of_reading hb (.inl (by simp [he]))
      payload_of_extract := nofun
      room_of_scan := fun _ _ => ⟨by simp; omega, match_eq.symm ▸ room⟩ }
  · exact hm.finish

theorem State.Inv.decodeSingle {s : State} (h : s.Inv) (he : s.engine = .decode) :
    (decodeSingle s).Inv := (h.writeDecode he (s.manchAt_length_le _)).finish

/-- A SCAN-mode decode goes on to EXTRACT only with 80 bits, and back to the search otherwise (R164). -/
theorem State.Inv.decodeScan {s : State} (h : s.Inv) (he : s.engine = .decode)
    (hm : s.mode = .scan) : (decodeScan s).Inv := by
  have hd := h.writeDecode he (s.manchAt_length_le (s.matchOfs + 16))
  have hb : s.busy = true := s.busy_iff.mpr (by simp [he])
  rcases decodeScan_cases s with ⟨len, e⟩ | ⟨_, e⟩ <;> rw [e]
  · exact { hd with
      done_of_busy := fun _ => h.done_of_busy hb
      len_of_reading := fun _ _ => h.len_of_reading hb (.inr hm)
      payload_of_extract := fun _ => by simpa using len
      room_of_scan := fun _ _ => h.room_of_scan hm (.inl he) }
  · exact hd.resumeScan hb hm

/-- Every engine step keeps the invariant. -/
theorem State.Inv.engineStep {s : State} (h : s.Inv) : (engineStep s).Inv := by
  rcases engineStep_cases s with ⟨_, e⟩ | ⟨he, _, e⟩ | ⟨he, _, e⟩ | ⟨he, _, e⟩ | ⟨he, hm, e⟩ |
    ⟨_, _, _, e⟩ | ⟨he, hm, _, e⟩ <;> rw [e]
  · exact h
  · exact h.findSingle he
  · exact h.findScan he
  · exact h.decodeSingle he
  · exact h.decodeScan he hm
  · exact h.emit.finish
  · exact h.emit.resumeScan (s.busy_iff.mpr (by simp [he])) hm

/-! ### The host's writes and the inputs from outside -/

/-- The acceptance of an engine command (R83): what the command's check let through is what its first step relies on. -/
theorem State.Inv.startEngine {s : State} (h : s.Inv) (m : Mode) (e : EngineState)
    (len : e ≠ .extract ∨ m = .scan → s.len ≤ s.params.rowMaxBits)
    (payload : e = .extract → s.sanityOk = true) (search : m = .scan → e = .find) :
    (s.startEngine m e).Inv :=
  { h with
    done_of_busy := fun _ => rfl
    len_of_reading := fun _ => len
    payload_of_extract := payload
    room_of_scan := fun hm he => by simp [search hm] at he }

/-- A word written to the window stays in it and keeps RAW's canonical form. -/
theorem State.Inv.writeRaw {s : State} (h : s.Inv) {a : BusAddr} {w : Nat}
    (window : rawWordAt s.params a = some w) (v : Word) : (s.writeRaw w v).Inv :=
  { h with
    raw_wf := State.wf_writeRaw w v h.raw_wf
    raw_inWindow := fun c hc => by
      obtain ⟨aligned, -, -, -⟩ := Params.bounds_of_wf h.params_wf
      obtain ⟨lo, hi⟩ := rawWordAt_bounds window aligned
      rcases Memory.mem_writeWord hc with ⟨hlo, hhi⟩ | hc
      · exact ⟨lo.trans hlo, hhi.trans_le hi⟩
      · exact h.raw_inWindow c hc }

/-- Every effect of a host write keeps the invariant. -/
theorem State.Inv.hostEffect {s t : State} (h : s.Inv) (effect : HostEffect s t) : t.Inv := by
  cases effect with
  | ignored => exact h
  | rejected c => exact h.reject c
  | nop idle | cleared idle =>
    exact { h with done_of_busy := fun hb => absurd (idle.symm.trans hb) (by decide) }
  | scanRow _ len =>
    exact { h.startEngine .scan .find (fun _ => len) nofun (fun _ => rfl) with
      scanPos_lt := Nat.two_pow_pos 17 }
  | find _ len => exact h.startEngine .single .find (fun _ => len) nofun nofun
  | decode _ len => exact h.startEngine .single .decode (fun _ => len) nofun nofun
  | extract _ payload => exact h.startEngine .single .extract (by simp) (fun _ => payload) nofun
  | popped | irqEn | start | rowIdx => exact { h with }
  | doneCleared v => exact { h with done_of_busy := fun hb => by simp [h.done_of_busy hb] }
  | rowLen idle v =>
    exact { h with
      len_of_reading := fun hb => absurd (idle.symm.trans hb) (by decide)
      room_of_scan := fun _ he => by simp [s.not_busy_iff.mp idle] at he }
  | raw _ a w v window => exact h.writeRaw window v

/-- A reset keeps the parameters and RAW and sets the rest to values that meet the invariant (R230). -/
theorem State.Inv.resetBlock {s : State} (h : s.Inv) : s.resetBlock.Inv where
  params_wf := h.params_wf
  raw_wf := h.raw_wf
  raw_inWindow := h.raw_inWindow
  scanPos_lt := Nat.two_pow_pos 17
  decCount_le := Nat.zero_le _
  sanity_iff := by simp [State.reset]
  integrity := (by decide : (0#10).extractLsb' 8 2 = 0#2)
  done_of_busy := nofun
  len_of_reading := nofun
  payload_of_extract := nofun
  room_of_scan := nofun

theorem State.Inv.powerOn {s : State} (h : s.Inv) : s.powerOn.Inv :=
  { h.resetBlock with raw_wf := rfl, raw_inWindow := nofun }

/-- Settles O51: every effect of a step is one of the operations above. -/
theorem everyStepKeepsTheInvariant : Obligations.EveryStepKeepsTheInvariant := by
  intro s t h hs
  have hd := h.dropTurn
  cases step_next hs with
  | noStatement => exact hd
  | write _ a v rest _ _ effect => exact (hd.hostData rest _ _).hostEffect effect
  | read _ v rest => exact hd.hostData rest _ _
  | engine => exact hd.engineStep
  | reset => exact hd.resetBlock
  | powerOn => exact hd.powerOn

/-! ## What a bus write does, by its address -/

theorem busWrite_of_decode {a : BusAddr} {v : Word} {i : Instr} (h : decode ⟨a, v⟩ = .ok i)
    (s : State) : busWrite a v s = exec i s := by simp [busWrite, h]

/-- NOP on an idle block (R180). -/
theorem exec_nop_of_idle {s : State} (idle : s.engine = .idle) :
    exec .nop s = .next s.accept.setDone := whenIdle_of_idle _ (s.not_busy_iff.mpr idle)

/-- CLEAR_COUNTS on an idle block (R181). -/
theorem exec_clearCounts_of_idle {s : State} (idle : s.engine = .idle) :
    exec .clearCounts s = .next s.accept.clearCounts.setDone :=
  whenIdle_of_idle _ (s.not_busy_iff.mpr idle)

theorem busWrite_load {a : BusAddr} {r : LoadReg} (h : regAt a = some r.reg) (v : Word)
    (s : State) : busWrite a v s = .next (s.load r v) := by simp [busWrite, decode_load h]

theorem busWrite_noRegister {a : BusAddr} (h : regAt a = none) (v : Word) (s : State) :
    busWrite a v s = .next (s.writeWindow a v) := by simp [busWrite, decode_noRegister h]

/-- An address of the RAW window lies in its byte range (R60). -/
theorem rawWordAt_range {p : Params} {a : BusAddr} {w : Nat} (h : rawWordAt p a = some w) :
    0x1000 ≤ a.toNat ∧ (p.wf = true → a.toNat < 0x1000 + p.rowMaxBits / 8) := by
  simp only [rawWordAt, wordAddr_toNat, rawBase, Option.ite_none_right_eq_some] at h
  obtain ⟨⟨lo, hi⟩, _⟩ := h
  refine ⟨by omega, fun hp => ?_⟩
  obtain ⟨aligned, -, -, -⟩ := Params.bounds_of_wf hp
  omega

/-- Every address of that byte range is one of the RAW window. -/
theorem rawWordAt_of_range {p : Params} {a : BusAddr} (lo : 0x1000 ≤ a.toNat)
    (hi : a.toNat < 0x1000 + p.rowMaxBits / 8) : ∃ w, rawWordAt p a = some w := by
  have window : rawBase ≤ (wordAddr a).toNat ∧
      (wordAddr a).toNat < rawBase + p.rowMaxBits / 8 := by
    rw [wordAddr_toNat, rawBase]; omega
  exact ⟨_, if_pos window⟩

/-! ### Writes while a command runs (O46) -/

theorem State.guarded_of_busy {s : State} (hb : s.busy = true) (stored : State) :
    s.guarded stored = s.reject .busy := by simp [State.guarded, hb]

theorem State.load_of_busy {s : State} (hb : s.busy = true) {r : LoadReg} (hr : r ≠ .irqEn)
    (v : Word) : s.load r v = s.reject .busy := by
  cases r with
  | irqEn => exact absurd rfl hr
  | rowLen | start | rowIdx => exact State.guarded_of_busy hb _

/-- The bytes 0x010 to 0x01B are the three guarded registers, which store their data (R33 to R35). -/
theorem regAt_guarded {a : BusAddr} (lo : 0x010 ≤ a.toNat) (hi : a.toNat < 0x01C) :
    ∃ r : LoadReg, r ≠ .irqEn ∧ regAt a = some r.reg := by
  rcases Nat.lt_or_ge a.toNat 0x014 with h | h
  · exact ⟨.rowLen, nofun, regAt_of_range .rowLen lo h⟩
  rcases Nat.lt_or_ge a.toNat 0x018 with h' | h'
  · exact ⟨.start, nofun, regAt_of_range .start h h'⟩
  · exact ⟨.rowIdx, nofun, regAt_of_range .rowIdx h' hi⟩

/-- Every command is rejected while one runs (R80). -/
theorem exec_command_of_busy {v : Word} {i : Instr} {s : State} (h : decodeCmd v = some i)
    (hb : s.busy = true) : exec i s = .next (s.reject .busy) := by
  rcases decodeCmd_eq_some h with ⟨_, rfl⟩ | ⟨_, rfl⟩ | ⟨_, rfl⟩ | ⟨_, rfl⟩ | ⟨_, rfl⟩ | ⟨_, rfl⟩ <;>
    exact whenIdle_of_busy _ hb

/-- Every write to CMD is rejected while a command runs, legal or not (R80, R204). -/
theorem busWrite_cmd_of_busy {a : BusAddr} (h : regAt a = some .cmd) (v : Word) {s : State}
    (hb : s.busy = true) : busWrite a v s = .next (s.reject .busy) := by
  cases hc : decodeCmd v with
  | none => simp [busWrite, decode, h, hc, illegalCommand, hb]
  | some i =>
    rw [busWrite_of_decode (i := i) (by simp [decode, h, hc])]
    exact exec_command_of_busy hc hb

/-- Settles O46, one address range after the other. -/
theorem guardedWritesAreIgnoredWhileBusy : Obligations.GuardedWritesAreIgnoredWhileBusy := by
  intro s a v he _
  have hb : s.busy = true := s.busy_iff.mpr he
  refine ⟨?_, fun ⟨lo, hi⟩ => ?_, fun ⟨lo, hi⟩ => ?_, fun ⟨lo, hi⟩ => ?_⟩
  · rintro (⟨lo, hi⟩ | ⟨lo, hi⟩ | hi)
    · obtain ⟨r, hr, hreg⟩ := regAt_guarded lo hi
      rw [busWrite_load hreg, State.load_of_busy hb hr]
      rfl
    · obtain ⟨w, hw⟩ := rawWordAt_of_range lo hi
      rw [busWrite_noRegister (regAt_eq_none (by omega)), State.writeWindow, hw]
      exact congrArg _ (State.guarded_of_busy hb _)
    · exact busWrite_cmd_of_busy (regAt_of_range .cmd (Nat.zero_le _) hi) v hb
  · exact busWrite_of_decode (decode_status (regAt_of_range .status lo hi) v) s
  · exact busWrite_load (r := .irqEn) (regAt_of_range .irqEn lo hi) v s
  · exact busWrite_of_decode (decode_resPop (regAt_of_range .resPop lo hi) v) s

/-! ### The effects of a bus write, each with the address it comes from -/

/-- The bytes whose write is guarded, CMD apart (R53): the operand registers and, in a legal build, the RAW window. -/
def guardedByte (p : Params) (a : BusAddr) : Prop :=
  0x010 ≤ a.toNat ∧ a.toNat < 0x01C ∨
    0x1000 ≤ a.toNat ∧ (p.wf = true → a.toNat < 0x1000 + p.rowMaxBits / 8)

/-- `HostEffect` once more, with the address and the decoded instruction each effect needs, for the statements about who
writes a flag. -/
inductive WriteEffect (a : BusAddr) (v : Word) (s : State) : State → Prop where
  | rejected (addr : regAt a = some .cmd) (c : ErrCode) : WriteEffect a v s (s.reject c)
  | nop (dec : decode ⟨a, v⟩ = .ok .nop) (idle : s.busy = false) :
      WriteEffect a v s s.accept.setDone
  | clearCounts (dec : decode ⟨a, v⟩ = .ok .clearCounts) (idle : s.busy = false) :
      WriteEffect a v s s.accept.clearCounts.setDone
  | started (addr : regAt a = some .cmd) (idle : s.busy = false) (m : Mode) (e : EngineState)
      (p : Nat) : WriteEffect a v s { s.startEngine m e with scanPos := p }
  | doneCleared (addr : regAt a = some .status) :
      WriteEffect a v s { s with done := s.done && !clearsDone v }
  | popped (addr : regAt a = some .resPop) : WriteEffect a v s s.pop
  | guarded (addr : guardedByte s.params a) (busy : s.busy = true) :
      WriteEffect a v s (s.reject .busy)
  | stored (irqEn : BitVec 2) (rowLen start : BitVec 16) (rowIdx : BitVec 8) (raw : Memory) :
      WriteEffect a v s { s with
        irqEn := irqEn, rowLen := rowLen, start := start, rowIdx := rowIdx, raw := raw }

theorem writeEffect_guarded {a : BusAddr} {v : Word} {s stored : State}
    (addr : guardedByte s.params a) (h : WriteEffect a v s stored) :
    WriteEffect a v s (s.guarded stored) := by
  rcases s.guarded_cases stored with ⟨hb, e⟩ | ⟨_, e⟩ <;> rw [e]
  · exact .guarded addr hb
  · exact h

theorem load_writeEffect {a : BusAddr} {r : LoadReg} (h : regAt a = some r.reg) (v : Word)
    (s : State) : WriteEffect a v s (s.load r v) := by
  obtain ⟨lo, hi⟩ := regAt_range h
  cases r with
  | irqEn => exact .stored (low2 v) s.rowLen s.start s.rowIdx s.raw
  | rowLen =>
    exact writeEffect_guarded (.inl ⟨lo, hi.trans (by decide)⟩)
      (.stored s.irqEn (low16 v) s.start s.rowIdx s.raw)
  | start =>
    exact writeEffect_guarded (.inl ⟨.trans (by decide) lo, hi.trans (by decide)⟩)
      (.stored s.irqEn s.rowLen (low16 v) s.rowIdx s.raw)
  | rowIdx =>
    exact writeEffect_guarded (.inl ⟨.trans (by decide) lo, hi⟩)
      (.stored s.irqEn s.rowLen s.start (low8 v) s.raw)

/-- A command that reads the row is rejected or starts the engine (R80, R83). -/
theorem rowCommand_writeEffect {a : BusAddr} {v : Word} {s t : State}
    (addr : regAt a = some .cmd) (m : Mode) (e : EngineState) (p : Nat)
    (h : whenIdle s (whenRowOk s (.next { s.startEngine m e with scanPos := p })) = .next t) :
    WriteEffect a v s t := by
  rcases whenIdle_next h with ⟨_, rfl⟩ | ⟨idle, h⟩
  · exact .rejected addr _
  rcases whenRowOk_next h with ⟨_, rfl⟩ | ⟨_, _, h⟩
  · exact .rejected addr _
  · cases h; exact .started addr idle m e p

/-- Every next state of a command is one of the effects at CMD. -/
theorem command_writeEffect {a : BusAddr} {v : Word} {i : Instr} {s t : State}
    (addr : regAt a = some .cmd) (dec : decode ⟨a, v⟩ = .ok i) (hc : decodeCmd v = some i)
    (h : exec i s = .next t) : WriteEffect a v s t := by
  rcases decodeCmd_eq_some hc with ⟨_, rfl⟩ | ⟨_, rfl⟩ | ⟨_, rfl⟩ | ⟨_, rfl⟩ | ⟨_, rfl⟩ | ⟨_, rfl⟩
  · rcases whenIdle_next h with ⟨_, rfl⟩ | ⟨idle, h⟩
    · exact .rejected addr _
    · cases h; exact .nop dec idle
  · exact rowCommand_writeEffect addr .scan .find 0 h
  · exact rowCommand_writeEffect addr .single .find s.scanPos h
  · exact rowCommand_writeEffect addr .single .decode s.scanPos h
  · rcases whenIdle_next h with ⟨_, rfl⟩ | ⟨idle, h⟩
    · exact .rejected addr _
    rcases whenPayloadOk_next h with ⟨_, rfl⟩ | ⟨_, h⟩
    · exact .rejected addr _
    · cases h; exact .started addr idle .single .extract s.scanPos
  · rcases whenIdle_next h with ⟨_, rfl⟩ | ⟨idle, h⟩
    · exact .rejected addr _
    · cases h; exact .clearCounts dec idle

/-- Every next state of a bus write is one of these effects. -/
theorem busWrite_writeEffect {a : BusAddr} {v : Word} {s t : State}
    (h : busWrite a v s = .next t) : WriteEffect a v s t := by
  unfold busWrite at h
  split at h
  · next i dec =>
    rcases decode_eq_ok dec with ⟨addr, hc⟩ | ⟨addr, rfl⟩ | ⟨addr, rfl⟩
    · exact command_writeEffect addr dec hc h
    · cases h; exact .doneCleared addr
    · cases h; exact .popped addr
  · next dec =>
    have addr := decode_eq_illegalCmd dec
    rcases whenIdle_next h with ⟨_, rfl⟩ | ⟨_, h⟩
    · exact .rejected addr _
    · cases h; exact .rejected addr _
  · next r dec => cases h; exact load_writeEffect (decode_eq_load dec) v s
  · cases h; exact .stored s.irqEn s.rowLen s.start s.rowIdx s.raw
  · cases h
    unfold State.writeWindow
    split
    · next w hw =>
      exact writeEffect_guarded (.inr (rawWordAt_range hw))
        (.stored s.irqEn s.rowLen s.start s.rowIdx _)
    · exact .stored s.irqEn s.rowLen s.start s.rowIdx s.raw

/-! ### What a bus write does to each flag -/

theorem WriteEffect.resValid {a : BusAddr} {v : Word} {s t : State} (h : WriteEffect a v s t) :
    t.resValid = s.resValid ∨ (t.resValid = false ∧ regAt a = some .resPop) := by
  cases h with
  | popped addr => exact .inr ⟨rfl, addr⟩
  | rejected | nop | clearCounts | started | doneCleared | guarded | stored => exact .inl rfl

theorem WriteEffect.done {a : BusAddr} {v : Word} {s t : State} (h : WriteEffect a v s t) :
    t.done = s.done ∨
    (t.done = true ∧ s.engine = .idle ∧
      (decode ⟨a, v⟩ = .ok .nop ∨ decode ⟨a, v⟩ = .ok .clearCounts)) ∨
    (t.done = false ∧ ((regAt a = some .cmd ∧ s.engine = .idle ∧ t.err = .none) ∨
      (regAt a = some .status ∧ clearsDone v = true))) := by
  cases h with
  | nop dec idle => exact .inr (.inl ⟨rfl, s.not_busy_iff.mp idle, .inl dec⟩)
  | clearCounts dec idle => exact .inr (.inl ⟨rfl, s.not_busy_iff.mp idle, .inr dec⟩)
  | started addr idle => exact .inr (.inr ⟨rfl, .inl ⟨addr, s.not_busy_iff.mp idle, rfl⟩⟩)
  | doneCleared addr =>
    by_cases hv : clearsDone v = true
    · exact .inr (.inr ⟨by simp [hv], .inr ⟨addr, hv⟩⟩)
    · exact .inl (by simp [hv])
  | rejected | popped | guarded | stored => exact .inl rfl

theorem WriteEffect.err {a : BusAddr} {v : Word} {s t : State} (h : WriteEffect a v s t)
    (hne : t.err ≠ s.err) :
    regAt a = some .cmd ∨ (s.engine ≠ .idle ∧ t.err = .busy ∧ guardedByte s.params a) := by
  cases h with
  | rejected addr | started addr => exact .inl addr
  | nop dec | clearCounts dec =>
    rcases decode_eq_ok dec with ⟨addr, _⟩ | ⟨_, h⟩ | ⟨_, h⟩
    · exact .inl addr
    all_goals cases h
  | guarded addr busy => exact .inr ⟨s.busy_iff.mp busy, rfl, addr⟩
  | doneCleared | popped | stored => exact absurd rfl hne

theorem WriteEffect.counts {a : BusAddr} {v : Word} {s t : State} (h : WriteEffect a v s t) :
    (t.readingCount = s.readingCount ∧ t.sanityFailCount = s.sanityFailCount) ∨
    (s.engine = .idle ∧ decode ⟨a, v⟩ = .ok .clearCounts) := by
  cases h with
  | clearCounts dec idle => exact .inr ⟨s.not_busy_iff.mp idle, dec⟩
  | rejected | nop | started | doneCleared | popped | guarded | stored => exact .inl ⟨rfl, rfl⟩

/-! ## What an engine step writes, and where it leaves the engine -/

/-- How an engine step whose results stand in `u` ends: the command is finished, or the engine goes on. -/
inductive GoesOn (u : State) : State → Prop where
  | finished : GoesOn u u.finish
  | next (e : EngineState) (p : Nat) (running : e ≠ .idle) :
      GoesOn u { u with engine := e, scanPos := p }

/-- Where the engine goes next touches nothing a DECODE step writes. -/
theorem GoesOn.keeps_decoded {u t : State} (h : GoesOn u t) :
    t.payload0 = u.payload0 ∧ t.payload1 = u.payload1 ∧ t.payload2 = u.payload2 ∧
    t.decCount = u.decCount ∧ t.sanityOk = u.sanityOk ∧
    t.sanityFailCount = u.sanityFailCount := by
  cases h <;> simp

/-- The offset of a DECODE step's pair 0 (R124, R164). -/
def State.decodeOfs (s : State) : Nat :=
  match s.mode with
  | .single => s.startOfs
  | .scan => s.matchOfs + 16

theorem engineStep_find {s : State} (he : s.engine = .find) :
    ∃ m, GoesOn (s.writeMatch m) (engineStep s) := by
  cases hm : s.mode with
  | single =>
    rw [engineStep_findSingle he hm]
    exact ⟨_, .finished⟩
  | scan =>
    rw [engineStep_findScan he hm]
    rcases findScan_cases s with ⟨_, e⟩ | ⟨_, e⟩ <;> rw [e]
    · exact ⟨_, .next .decode s.scanPos nofun⟩
    · exact ⟨_, .finished⟩

theorem engineStep_decode {s : State} (he : s.engine = .decode) :
    GoesOn (s.writeDecode (s.manchAt s.decodeOfs)) (engineStep s) := by
  cases hm : s.mode with
  | single =>
    rw [engineStep_decodeSingle he hm, State.decodeOfs, hm]
    exact .finished
  | scan =>
    rw [engineStep_decodeScan he hm, State.decodeOfs, hm]
    rcases decodeScan_cases s with ⟨_, e⟩ | ⟨_, e⟩ <;> rw [e]
    · exact .next .extract s.scanPos nofun
    · exact .next .find _ nofun

theorem engineStep_extract {s : State} (he : s.engine = .extract) (hv : s.resValid = false) :
    GoesOn s.emit (engineStep s) := by
  cases hm : s.mode with
  | single => exact engineStep_extractSingle he hm hv ▸ .finished
  | scan => exact engineStep_extractScan he hm hv ▸ .next .find _ nofun

/-- Every engine step, by the engine's state: nothing, or its results and how it ends. -/
inductive EngineEffect (s : State) : State → Prop where
  | none (disabled : s.engineEnabled = false) : EngineEffect s s
  | find (state : s.engine = .find) (m : Nat) (t : State) (goes : GoesOn (s.writeMatch m) t) :
      EngineEffect s t
  | decode (state : s.engine = .decode) (d : List Bool) (t : State)
      (goes : GoesOn (s.writeDecode d) t) : EngineEffect s t
  | extract (state : s.engine = .extract) (free : s.resValid = false) (t : State)
      (goes : GoesOn s.emit t) : EngineEffect s t

theorem engineStep_effect (s : State) : EngineEffect s (engineStep s) := by
  cases he : s.engine with
  | idle =>
    rw [engineStep_idle he]
    exact .none (by simp [State.engineEnabled, State.busy, he])
  | find =>
    obtain ⟨m, goes⟩ := engineStep_find he
    exact .find he m _ goes
  | decode => exact .decode he _ _ (engineStep_decode he)
  | extract =>
    cases hv : s.resValid with
    | false => exact .extract he hv _ (engineStep_extract he hv)
    | true =>
      rw [engineStep_hold he hv]
      exact .none (by simp [State.engineEnabled, he, hv])

/-! ### What an engine step does to each flag -/

/-- An enabled EXTRACT step fills the result slot and counts its reading; any other engine step leaves the slot as it is
(R24, R43). -/
theorem EngineEffect.slot {s t : State} (h : EngineEffect s t) :
    (s.engine = .extract ∧ s.resValid = false ∧ t.resValid = true ∧
      t.readingCount = s.readingCount + 1#32) ∨
    (t.resValid = s.resValid ∧ t.readingCount = s.readingCount ∧ t.resId = s.resId ∧
      t.resFlags = s.resFlags ∧ t.resData = s.resData ∧ t.resPos = s.resPos) := by
  cases h with
  | none => simp
  | find _ m _ goes => cases goes <;> simp
  | decode _ d _ goes => cases goes <;> simp
  | extract state free _ goes => cases goes <;> simp [state, free]

/-- An engine step that ends a command sets DONE; any other leaves it as it is, and does not reach IDLE (R25). -/
theorem EngineEffect.done {s t : State} (h : EngineEffect s t) :
    (s.engine ≠ .idle ∧ t.engine = .idle ∧ t.done = true) ∨
    (t.done = s.done ∧ (t.engine = .idle → s.engine = .idle)) := by
  cases h with
  | none => simp
  | find state _ _ goes | decode state _ _ goes | extract state _ _ goes =>
    cases goes with
    | finished => simp [state]
    | next e p running => simp [running]

/-- Only FIND steps write FOUND and MATCH_POS (R26). -/
theorem EngineEffect.search {s t : State} (h : EngineEffect s t) :
    s.engine = .find ∨ (t.found = s.found ∧ t.matchPos = s.matchPos) := by
  cases h with
  | none => simp
  | find state => exact .inl state
  | decode _ d _ goes => cases goes <;> simp
  | extract _ _ _ goes => cases goes <;> simp

/-- Only DECODE steps write SANITY_OK, DEC_COUNT and PAYLOAD, and one that fails counts its failure (R27, R43). -/
theorem EngineEffect.decoded {s t : State} (h : EngineEffect s t) :
    (s.engine = .decode ∧ t.sanityFailCount =
      if t.sanityOk then s.sanityFailCount else s.sanityFailCount + 1#32) ∨
    (t.sanityOk = s.sanityOk ∧ t.decCount = s.decCount ∧ t.payload0 = s.payload0 ∧
      t.payload1 = s.payload1 ∧ t.payload2 = s.payload2 ∧
      t.sanityFailCount = s.sanityFailCount) := by
  cases h with
  | none => simp
  | find _ m _ goes => cases goes <;> simp
  | decode state d _ goes => cases goes <;> simp [state]
  | extract _ _ _ goes => cases goes <;> simp

/-! ## Steps by whose turn it is -/

theorem step_write {s : State} {a : BusAddr} {v : Word} {rest : List HostOp}
    (turn : s.nextTurn = .host) (stmt : s.program = .write a v :: rest) :
    step s = busWrite a v { s.dropTurn with program := rest } := by
  simp [step, turn, takeTurn, hostStep, stmt]

/-- A step with an input from outside leaves every flag and counter at 0 (R230). -/
theorem step_reset {s t : State} (h : step s = .next t)
    (turn : s.nextTurn = .reset ∨ s.nextTurn = .powerOn) :
    t.resValid = false ∧ t.done = false ∧ t.readingCount = 0#32 ∧ t.sanityFailCount = 0#32 := by
  rcases turn with turn | turn <;>
  · simp only [step, turn, takeTurn, Host.Outcome.next.injEq] at h
    subst h
    exact ⟨rfl, rfl, rfl, rfl⟩

/-- An engine turn has an engine effect on the state, its schedule apart. -/
theorem step_engineEffect {s t : State} (h : step s = .next t) (turn : s.nextTurn = .engine) :
    EngineEffect s.dropTurn t := by
  rw [step_engine turn] at h
  cases h
  exact engineStep_effect _

/-! ## A decode has no history (O54) -/

theorem State.manchAt_congr {s s' : State} (len : s'.rowLen = s.rowLen)
    (conv : s'.params.manchConv = s.params.manchConv)
    (row : ∀ k < s.len, s'.rowBit k = s.rowBit k) (ofs : Nat) :
    s'.manchAt ofs = s.manchAt ofs := by
  have hlen : s'.len = s.len := congrArg BitVec.toNat len
  rw [State.manchAt, State.manchAt, conv, hlen]
  exact manchFrom_congr row _ _

theorem State.decodeOfs_congr {s s' : State} (mode : s'.mode = s.mode)
    (start : s.mode = .single → s'.start = s.start)
    (found : s.mode = .scan → s'.matchPos = s.matchPos) : s'.decodeOfs = s.decodeOfs := by
  rw [State.decodeOfs, State.decodeOfs, mode]
  cases hm : s.mode with
  | single => exact congrArg BitVec.toNat (start hm)
  | scan => exact congrArg (·.toNat + 16) (found hm)

/-- Settles O54: both steps leave `writeDecode` of one and the same list of bits. -/
theorem decodeKeepsNoHistory : Obligations.DecodeKeepsNoHistory := by
  intro s s' t t' turn turn' state state' mode len conv row start found h h'
  rw [step_engine turn] at h
  rw [step_engine turn'] at h'
  cases h
  cases h'
  have bits : s'.dropTurn.manchAt s'.dropTurn.decodeOfs =
      s.dropTurn.manchAt s.dropTurn.decodeOfs :=
    (State.manchAt_congr len conv row _).trans
      (congrArg s.manchAt (State.decodeOfs_congr mode start found))
  have goes := engineStep_decode (s := s.dropTurn) state
  have goes' := engineStep_decode (s := s'.dropTurn) state'
  rw [bits] at goes'
  obtain ⟨p0, p1, p2, count, ok, -⟩ := goes.keeps_decoded
  obtain ⟨p0', p1', p2', count', ok', -⟩ := goes'.keeps_decoded
  exact ⟨p0'.trans p0.symm, p1'.trans p1.symm, p2'.trans p2.symm, count'.trans count.symm,
    ok'.trans ok.symm⟩

/-! ## Who writes the result slot (O55) -/

/-- RES_VALID and the slot stay, or one of the three events of R24 happens. -/
theorem step_slot_cases {s t : State} (h : step s = .next t) :
    (t.resValid = s.resValid ∧ t.resId = s.resId ∧ t.resFlags = s.resFlags ∧
      t.resData = s.resData ∧ t.resPos = s.resPos) ∨
    (s.nextTurn = .engine ∧ s.engine = .extract ∧ s.resValid = false ∧ t.resValid = true) ∨
    (t.resValid = false ∧ (s.nextTurn = .reset ∨ s.nextTurn = .powerOn ∨
      (s.nextTurn = .host ∧ ∃ a v rest, s.program = .write a v :: rest ∧
        regAt a = some .resPop))) := by
  cases step_next h with
  | noStatement | read => exact .inl ⟨rfl, rfl, rfl, rfl, rfl⟩
  | write turn a v rest stmt _ effect ran =>
    obtain ⟨-, -, -, -, -, -, -, -, id, flags, data, pos, -, -, -, -⟩ := effect.keeps
    rcases (busWrite_writeEffect ran).resValid with kept | ⟨popped, addr⟩
    · exact .inl ⟨kept, id, flags, data, pos⟩
    · exact .inr (.inr ⟨popped, .inr (.inr ⟨turn, a, v, rest, stmt, addr⟩)⟩)
  | engine turn =>
    rcases (engineStep_effect s.dropTurn).slot with ⟨state, free, full, _⟩ |
      ⟨kept, _, id, flags, data, pos⟩
    · exact .inr (.inl ⟨turn, state, free, full⟩)
    · exact .inl ⟨kept, id, flags, data, pos⟩
  | reset turn => exact .inr (.inr ⟨rfl, .inl turn⟩)
  | powerOn turn => exact .inr (.inr ⟨rfl, .inr (.inl turn)⟩)

/-- An enabled EXTRACT step fills the slot and counts its reading (R144). -/
theorem step_extract {s t : State} (h : step s = .next t) (turn : s.nextTurn = .engine)
    (state : s.engine = .extract) (free : s.resValid = false) :
    t.resValid = true ∧ t.readingCount = s.readingCount + 1#32 := by
  rw [step_engine turn, Host.Outcome.next.injEq] at h
  have goes : GoesOn s.dropTurn.emit t := h ▸ engineStep_extract state free
  cases goes <;> exact ⟨rfl, rfl⟩

/-- Settles O55: the "by nothing else" halves are `step_slot_cases`, the others follow each event. -/
theorem resultSlotIsStableUntilPopped : Obligations.ResultSlotIsStableUntilPopped := by
  intro s t h
  refine ⟨fun low high => ?_, fun high low => ?_,
    fun turn state free => (step_extract h turn state free).1,
    fun a v rest turn stmt addr => ?_, fun turn => (step_reset h turn).1, fun high high' => ?_⟩
  · rcases step_slot_cases h with ⟨kept, _⟩ | ⟨turn, state, _⟩ | ⟨fell, _⟩
    · simp [kept, low] at high
    · exact ⟨turn, state⟩
    · simp [fell] at high
  · rcases step_slot_cases h with ⟨kept, _⟩ | ⟨_, _, free, _⟩ | ⟨_, turn | turn | event⟩
    · simp [kept, high] at low
    · simp [free] at high
    · exact .inl turn
    · exact .inr (.inl turn)
    · obtain ⟨turn, a, v, rest, stmt, addr⟩ := event
      exact .inr (.inr ⟨turn, a, v, rest, stmt, regAt_eq_some addr⟩)
  · rw [step_write turn stmt, busWrite_of_decode (decode_resPop (regAt_of_wordAddr addr) v)] at h
    cases h
    rfl
  · rcases step_slot_cases h with ⟨_, same⟩ | ⟨_, _, free, _⟩ | ⟨fell, _⟩
    · exact same
    · simp [free] at high
    · simp [fell] at high'

/-! ## Who writes DONE (O56) -/

/-- DONE stays, or is set by a completion, or cleared, each by the events of R25. -/
theorem step_done_cases {s t : State} (h : step s = .next t) :
    t.done = s.done ∨
    (t.done = true ∧ ((s.nextTurn = .engine ∧ s.engine ≠ .idle ∧ t.engine = .idle) ∨
      (s.nextTurn = .host ∧ s.engine = .idle ∧ ∃ a v rest, s.program = .write a v :: rest ∧
        (decode ⟨a, v⟩ = .ok .nop ∨ decode ⟨a, v⟩ = .ok .clearCounts)))) ∨
    (t.done = false ∧ (s.nextTurn = .reset ∨ s.nextTurn = .powerOn ∨
      (s.nextTurn = .host ∧ ∃ a v rest, s.program = .write a v :: rest ∧
        ((regAt a = some .cmd ∧ s.engine = .idle ∧ t.err = .none) ∨
          (regAt a = some .status ∧ clearsDone v = true))))) := by
  cases step_next h with
  | noStatement | read => exact .inl rfl
  | write turn a v rest stmt _ _ ran =>
    rcases (busWrite_writeEffect ran).done with kept | ⟨set, idle, dec⟩ | ⟨cleared, event⟩
    · exact .inl kept
    · exact .inr (.inl ⟨set, .inr ⟨turn, idle, a, v, rest, stmt, dec⟩⟩)
    · exact .inr (.inr ⟨cleared, .inr (.inr ⟨turn, a, v, rest, stmt, event⟩)⟩)
  | engine turn =>
    rcases (engineStep_effect s.dropTurn).done with ⟨running, idle, set⟩ | ⟨kept, _⟩
    · exact .inr (.inl ⟨set, .inl ⟨turn, running, idle⟩⟩)
    · exact .inl kept
  | reset turn => exact .inr (.inr ⟨rfl, .inl turn⟩)
  | powerOn turn => exact .inr (.inr ⟨rfl, .inr (.inl turn)⟩)

/-- A host write that starts the engine is an acceptance, and leaves DONE = 0 (R83). -/
theorem HostEffect.done_of_started {s t : State} (h : HostEffect s t) (idle : s.engine = .idle)
    (started : t.engine ≠ .idle) : t.done = false := by
  cases h with
  | scanRow | find | decode | extract => rfl
  | ignored | rejected | nop | cleared | popped | doneCleared | irqEn | rowLen | start | rowIdx
  | raw => exact absurd idle started

/-- Settles O56: the "by nothing else" halves are `step_done_cases`, the others follow each event. -/
theorem doneIsSetByCompletionOnly : Obligations.DoneIsSetByCompletionOnly := by
  intro s t h
  refine ⟨fun low high => ?_, fun turn running idle => ?_,
    fun a v rest turn idle stmt dec => ?_, fun high low => ?_,
    fun turn => (step_reset h turn).2.1, fun a v rest turn stmt event => ?_⟩
  · rcases step_done_cases h with kept | ⟨_, event⟩ | ⟨fell, _⟩
    · simp [kept, low] at high
    · exact event
    · simp [fell] at high
  · rcases (step_engineEffect h turn).done with ⟨_, _, set⟩ | ⟨_, still⟩
    · exact set
    · exact absurd (still idle) running
  · rw [step_write turn stmt] at h
    rcases dec with dec | dec <;> rw [busWrite_of_decode dec] at h
    · cases h.symm.trans (exec_nop_of_idle idle)
      rfl
    · cases h.symm.trans (exec_clearCounts_of_idle idle)
      rfl
  · rcases step_done_cases h with kept | ⟨set, _⟩ | ⟨_, turn | turn | event⟩
    · simp [kept, high] at low
    · simp [set] at low
    · exact .inl turn
    · exact .inr (.inl turn)
    · obtain ⟨turn, a, v, rest, stmt, ⟨addr, idle, err⟩ | ⟨addr, bit⟩⟩ := event
      · exact .inr (.inr ⟨turn, a, v, rest, stmt, .inl ⟨regAt_eq_some addr, idle, err⟩⟩)
      · exact .inr (.inr ⟨turn, a, v, rest, stmt, .inr ⟨regAt_eq_some addr, bit⟩⟩)
  · rw [step_write turn stmt] at h
    rcases event with ⟨_, idle, started⟩ | ⟨addr, bit⟩
    · exact (busWrite_next h).done_of_started idle started
    · rw [busWrite_of_decode (decode_status (regAt_of_wordAddr addr) v)] at h
      cases h
      simp [clearsDone, bit]

/-! ## Who writes the other flags (O57) -/

/-- Settles O57: each flag with the effects that write it. -/
theorem flagsHaveTheirOwnWriters : Obligations.FlagsHaveTheirOwnWriters := by
  intro s t h noReset noPowerOn
  cases step_next h with
  | noStatement | read => simp
  | reset turn => exact absurd turn noReset
  | powerOn turn => exact absurd turn noPowerOn
  | write turn a v rest stmt _ effect ran =>
    obtain ⟨-, found, ok, pos, count, p0, p1, p2, -⟩ := effect.keeps
    refine ⟨by simp [found, pos], by simp [ok, count, p0, p1, p2], fun hne => ?_⟩
    rcases (busWrite_writeEffect ran).err hne with addr | event
    · exact ⟨turn, a, v, rest, stmt, .inl (regAt_eq_some addr)⟩
    · exact ⟨turn, a, v, rest, stmt, .inr event⟩
  | engine turn =>
    obtain ⟨-, -, -, -, -, -, -, err, -⟩ := engineStep_keeps s.dropTurn
    refine ⟨fun hne => ?_, fun hne => ?_, fun hne => absurd err hne⟩
    · rcases (engineStep_effect s.dropTurn).search with state | ⟨found, pos⟩
      · exact ⟨turn, state⟩
      · simp [found, pos] at hne
    · rcases (engineStep_effect s.dropTurn).decoded with ⟨state, _⟩ | ⟨ok, count, p0, p1, p2, _⟩
      · exact ⟨turn, state⟩
      · simp [ok, count, p0, p1, p2] at hne

/-! ## What the counters count (O58) -/

/-- A DECODE step that fails counts its failure (R124, R164). -/
theorem step_decode_fails {s t : State} (h : step s = .next t) (turn : s.nextTurn = .engine)
    (state : s.engine = .decode) (fails : t.sanityOk = false) :
    t.sanityFailCount = s.sanityFailCount + 1#32 := by
  rw [step_engine turn, Host.Outcome.next.injEq] at h
  have goes : GoesOn (s.dropTurn.writeDecode (s.dropTurn.manchAt s.dropTurn.decodeOfs)) t :=
    h ▸ engineStep_decode state
  obtain ⟨-, -, -, -, ok, count⟩ := goes.keeps_decoded
  have short : ¬(s.dropTurn.manchAt s.dropTurn.decodeOfs).length = Config.nDec := by
    simpa using ok.symm.trans fails
  exact count.trans (if_neg short)

/-- Both counters stay, or the step is one of the events of R43. -/
theorem step_counts_cases {s t : State} (h : step s = .next t) :
    (t.readingCount = s.readingCount ∧ t.sanityFailCount = s.sanityFailCount) ∨
    s.nextTurn = .reset ∨ s.nextTurn = .powerOn ∨
    (s.nextTurn = .engine ∧ s.engine = .extract ∧ s.resValid = false ∧
      t.sanityFailCount = s.sanityFailCount) ∨
    (s.nextTurn = .engine ∧ s.engine = .decode ∧ t.readingCount = s.readingCount ∧
      (t.sanityOk = true → t.sanityFailCount = s.sanityFailCount)) ∨
    (s.nextTurn = .host ∧ s.engine = .idle ∧ ∃ a v rest, s.program = .write a v :: rest ∧
      decode ⟨a, v⟩ = .ok .clearCounts) := by
  cases step_next h with
  | noStatement | read => exact .inl ⟨rfl, rfl⟩
  | reset turn => exact .inr (.inl turn)
  | powerOn turn => exact .inr (.inr (.inl turn))
  | write turn a v rest stmt _ _ ran =>
    rcases (busWrite_writeEffect ran).counts with kept | ⟨idle, dec⟩
    · exact .inl kept
    · exact .inr (.inr (.inr (.inr (.inr ⟨turn, idle, a, v, rest, stmt, dec⟩))))
  | engine turn =>
    have effect := engineStep_effect s.dropTurn
    rcases effect.slot with ⟨extract, free, _, _⟩ | ⟨_, readings, _⟩ <;>
      rcases effect.decoded with ⟨decoding, fails⟩ | ⟨_, _, _, _, _, fails⟩
    · exact absurd (extract.symm.trans decoding) nofun
    · exact .inr (.inr (.inr (.inl ⟨turn, extract, free, fails⟩)))
    · exact .inr (.inr (.inr (.inr (.inl
        ⟨turn, decoding, readings, fun ok => fails.trans (if_pos ok)⟩))))
    · exact .inl ⟨readings, fails⟩

/-- Settles O58: the "nothing else" halves are `step_counts_cases`, the others follow each event. -/
theorem countersCountOneEventEach : Obligations.CountersCountOneEventEach := by
  intro s t h
  refine ⟨fun turn state free => (step_extract h turn state free).2,
    fun turn state fails => step_decode_fails h turn state fails,
    fun a v rest turn idle stmt dec => ?_, fun turn => (step_reset h turn).2.2,
    fun hne => ?_, fun hne => ?_⟩
  · rw [step_write turn stmt, busWrite_of_decode dec] at h
    cases h.symm.trans (exec_clearCounts_of_idle idle)
    exact ⟨rfl, rfl⟩
  · rcases step_counts_cases h with ⟨kept, _⟩ | turn | turn | ⟨turn, state, free, _⟩ |
      ⟨_, _, kept, _⟩ | event
    · exact absurd kept hne
    · exact .inl turn
    · exact .inr (.inl turn)
    · exact .inr (.inr (.inl ⟨turn, state, free⟩))
    · exact absurd kept hne
    · exact .inr (.inr (.inr event))
  · rcases step_counts_cases h with ⟨_, kept⟩ | turn | turn | ⟨_, _, _, kept⟩ |
      ⟨turn, state, _, kept⟩ | event
    · exact absurd kept hne
    · exact .inl turn
    · exact .inr (.inl turn)
    · exact absurd kept hne
    · have fails : t.sanityOk = false := Bool.eq_false_iff.mpr fun ok => hne (kept ok)
      exact .inr (.inr (.inl ⟨turn, state, fails⟩))
    · exact .inr (.inr (.inr event))

/-! ## The status and parameter registers (O40, O41) -/

/-- STATUS, field by field (R22). -/
theorem State.statusWord_fields (s : State) :
    s.statusWord.getLsbD 0 = s.busy ∧ s.statusWord.getLsbD 1 = s.resValid ∧
    s.statusWord.getLsbD 2 = s.done ∧ s.statusWord.getLsbD 3 = s.found ∧
    s.statusWord.getLsbD 4 = s.sanityOk ∧ s.statusWord.extractLsb' 5 3 = 0#3 ∧
    s.statusWord.extractLsb' 8 4 = s.err.code ∧ s.statusWord.extractLsb' 12 3 = s.engine.code ∧
    s.statusWord.getLsbD 15 = s.mode.code.getLsbD 0 ∧
    s.statusWord.extractLsb' 16 16 = 0#16 := by
  simp only [State.statusWord, BitVec.getLsbD_append, BitVec.extractLsb'_append_eq_ite]
  simp

theorem Mode.code_getLsbD (m : Mode) : m.code.getLsbD 0 = decide (m = .scan) := by
  cases m <;> rfl

/-- Settles O40: the host reads `statusWord` at STATUS, whose fields are the codes of R29, R30 and R201. -/
theorem statusReadsItsFields : Obligations.StatusReadsItsFields := by
  intro s
  have hread : busRead s 0x004#16 = s.statusWord := rfl
  obtain ⟨busy, resValid, done, found, sanity, low, err, engine, mode, high⟩ :=
    s.statusWord_fields
  rw [hread]
  exact ⟨busy, resValid, done, found, sanity, low, err.trans (by cases s.err <;> rfl),
    engine.trans (by cases s.engine <;> rfl), mode.trans s.mode.code_getLsbD, high⟩

theorem manchConvBit_getLsbD (c : ManchConv) :
    (manchConvBit c).getLsbD 0 = decide (c = .firstBit) := by
  cases c <;> rfl

/-- PARAM0 and PARAM1, field by field (R44). -/
theorem Params.param_fields (p : Params) :
    (Params.param0 p).extractLsb' 0 16 = BitVec.ofNat 16 p.rowMaxBits ∧
    (Params.param0 p).getLsbD 16 = (manchConvBit p.manchConv).getLsbD 0 ∧
    (Params.param0 p).extractLsb' 17 15 = 0#15 ∧
    (Params.param1 p).extractLsb' 0 16 = p.marker ∧
    (Params.param1 p).extractLsb' 16 8 = BitVec.ofNat 8 p.scanStep ∧
    (Params.param1 p).extractLsb' 24 8 = 0#8 := by
  simp only [Params.param0, Params.param1, BitVec.getLsbD_append,
    BitVec.extractLsb'_append_eq_ite]
  simp

/-- No step changes the build parameters (R44). -/
theorem step_params {s t : State} (h : step s = .next t) : t.params = s.params := by
  cases step_next h with
  | noStatement => rfl
  | write _ _ _ _ _ _ effect => exact effect.keeps.1
  | read => rfl
  | engine => exact (engineStep_keeps s.dropTurn).1
  | reset => rfl
  | powerOn => rfl

/-- Settles O41: the fields of R44 hold the parameters of a legal build unclipped, and no step changes them. -/
theorem parameterRegistersAreConstant : Obligations.ParameterRegistersAreConstant := by
  refine ⟨fun s hp => ?_, fun s t h => step_params h, fun s hp => ?_⟩
  · have read0 : busRead s 0x048#16 = Params.param0 s.params := rfl
    have read1 : busRead s 0x04C#16 = Params.param1 s.params := rfl
    obtain ⟨rowMaxBits, conv, high0, marker, scanStep, high1⟩ := Params.param_fields s.params
    obtain ⟨-, hmax, -, hstep⟩ := Params.bounds_of_wf hp
    rw [read0, read1, rowMaxBits, conv, scanStep, BitVec.toNat_ofNat, BitVec.toNat_ofNat]
    exact ⟨Nat.mod_eq_of_lt (by omega), manchConvBit_getLsbD _, high0, marker,
      Nat.mod_eq_of_lt (by omega), high1⟩
  · have read0 : busRead s 0x048#16 = Params.param0 s.params := rfl
    have read1 : busRead s 0x04C#16 = Params.param1 s.params := rfl
    rw [read0, read1, hp]
    decide

end Sys2Proof.Machine

namespace Sys2Proof

/-! ## Bus addresses: a write and a read depend on the word address only (R66) -/

theorem wordAddr_wordAddr (a : BusAddr) : wordAddr (wordAddr a) = wordAddr a := by
  rw [wordAddr, wordAddr, BitVec.and_assoc, BitVec.and_self]

theorem regAt_wordAddr (a : BusAddr) : regAt (wordAddr a) = regAt a := by
  rw [regAt, regAt, wordAddr_wordAddr]

/-- What a write decodes to depends on the register it goes to and on its data (R91). -/
theorem decode_congr {a a' : BusAddr} (h : regAt a = regAt a') (v : Word) :
    decode ⟨a, v⟩ = decode ⟨a', v⟩ := by
  simp only [decode, h]

/-- The addresses below 0x050 are registers without a gap (R20). -/
theorem exists_regAt {a : BusAddr} (h : a.toNat < 0x050) : ∃ r, regAt a = some r := by
  have addr : ∀ k (hk : k < Reg.all.length), Reg.all[k].addr.toNat = 4 * k := by decide
  have hk : a.toNat / 4 < Reg.all.length := Nat.div_lt_of_lt_mul h
  have := addr _ hk
  exact ⟨Reg.all[a.toNat / 4], regAt_of_range _ (by omega) (by omega)⟩

/-- From MATCH_POS on, every register is read-only (R51). -/
theorem decode_readOnly {a : BusAddr} (lo : 0x01C ≤ a.toNat) (hi : a.toNat < 0x050) (v : Word) :
    decode ⟨a, v⟩ = .error .readOnly := by
  obtain ⟨r, hr⟩ := exists_regAt hi
  obtain ⟨-, below⟩ := regAt_range hr
  cases r with
  | cmd | status | irqEn | resPop | rowLen | start | rowIdx =>
    exact absurd (lo.trans_lt below) (by decide)
  | _ => simp [decode, hr]

/-- A table word that decodes is a bus write that decodes (log 10). -/
theorem decode_tableWrite {nbits w : Nat} {i : Instr} (h : decodeTableWord nbits w = some i) :
    decode (tableWrite nbits w) = .ok i := by
  unfold decodeTableWord at h
  split at h
  · split at h
    · next e => cases h; exact e
    · cases h
  · cases h

end Sys2Proof

namespace Sys2Proof.Machine

theorem rawWordAt_wordAddr (p : Params) (a : BusAddr) :
    rawWordAt p (wordAddr a) = rawWordAt p a := by
  rw [rawWordAt, rawWordAt, wordAddr_wordAddr]

theorem busRead_wordAddr (s : State) (a : BusAddr) : busRead s (wordAddr a) = busRead s a := by
  rw [busRead, busRead, regAt_wordAddr, rawWordAt_wordAddr]

theorem busWrite_wordAddr (a : BusAddr) (v : Word) (s : State) :
    busWrite (wordAddr a) v s = busWrite a v s := by
  rw [busWrite, busWrite, decode_congr (regAt_wordAddr a), State.writeWindow, State.writeWindow,
    rawWordAt_wordAddr]

/-- Settles O42: `wordAddr` clears the two bits, and every access goes by the word address. -/
theorem lowAddressBitsAreIgnored : Obligations.LowAddressBitsAreIgnored :=
  fun s a v => ⟨(busRead_wordAddr s a).symm, (busWrite_wordAddr a v s).symm⟩

/-! ## Read-only registers and unmapped addresses (O43) -/

theorem busWrite_readOnly {a : BusAddr} (lo : 0x01C ≤ a.toNat) (hi : a.toNat < 0x050) (v : Word)
    (s : State) : busWrite a v s = .next s := by
  rw [busWrite, decode_readOnly lo hi]

/-- The RAW window of a legal build ends at ROW_MAX_BITS / 8 bytes (R60, R78). -/
theorem rawWordAt_eq_none {p : Params} {a : BusAddr} (hp : p.wf = true)
    (h : a.toNat < 0x1000 ∨ 0x1000 + p.rowMaxBits / 8 ≤ a.toNat) : rawWordAt p a = none := by
  cases hw : rawWordAt p a with
  | none => rfl
  | some w =>
    obtain ⟨lo, hi⟩ := rawWordAt_range hw
    have := hi hp
    omega

/-- Settles O43: such a write decodes to `readOnly`, or to `noRegister` outside the RAW window. -/
theorem readOnlyAndUnmappedWritesAreIgnored : Obligations.ReadOnlyAndUnmappedWritesAreIgnored := by
  refine ⟨fun s a v lo hi => busWrite_readOnly lo hi v s, fun s a v hp range => ?_⟩
  have noReg : regAt a = none := regAt_eq_none (by omega)
  have noWord : rawWordAt s.params a = none := rawWordAt_eq_none hp (by omega)
  constructor
  · rw [busWrite_noRegister noReg, State.writeWindow, noWord]
  · rw [busRead, noReg, noWord]

/-! ## The RAW window (O45) -/

theorem State.guarded_of_idle {s : State} (idle : s.engine = .idle) (stored : State) :
    s.guarded stored = stored := by simp [State.guarded, State.busy, idle]

/-- A row bit is a bit of its word, most significant first (R61). -/
theorem State.rowBit_of_word (s : State) (w : Nat) {j : Nat} (hj : j < 32) :
    s.rowBit (32 * w + j) = (s.rawWord w).getLsbD (31 - j) := by
  have hw : (32 * w + j) / 32 = w := by omega
  have hj' : (32 * w + j) % 32 = j := by omega
  rw [State.rowBit, hw, hj']

/-- The row is RAW's content and, where nothing is written, the power-on's (log 3). -/
theorem State.rowBit_congr {s t : State} (raw : t.raw = s.raw)
    (powerOns : t.powerOns = s.powerOns) : t.rowBit = s.rowBit := by
  funext k
  simp only [State.rowBit, State.rawWord, State.rawByte, raw, powerOns]

theorem State.rawWord_writeRaw_other (s : State) {w w' : Nat} (v : Word) (h : w' ≠ w) :
    (s.writeRaw w v).rawWord w' = s.rawWord w' := by
  have bytes : ∀ j < 4, (s.writeRaw w v).rawByte (rawAddr w' + j) = s.rawByte (rawAddr w' + j) :=
    fun j hj => s.rawByte_writeRaw_other w v _ (by simp only [rawAddr]; omega)
  have byte0 := bytes 0 (by decide)
  rw [Nat.add_zero] at byte0
  rw [State.rawWord, State.rawWord, byte0, bytes 1 (by decide), bytes 2 (by decide),
    bytes 3 (by decide)]

section
variable {p : Params} {w : Nat} (hp : p.wf = true) (hw : 32 * w < p.rowMaxBits)
include hp hw

/-- The window of a legal build lies below 0x2000, so its addresses fit the bus (R60). -/
theorem rawAddr_toNat : (BitVec.ofNat 16 (rawAddr w)).toNat = 0x1000 + 4 * w := by
  obtain ⟨-, max, -, -⟩ := Params.bounds_of_wf hp
  rw [BitVec.toNat_ofNat]
  exact Nat.mod_eq_of_lt (by simp only [rawAddr, rawBase]; omega)

theorem regAt_rawAddr : regAt (BitVec.ofNat 16 (rawAddr w)) = none :=
  regAt_eq_none (by rw [rawAddr_toNat hp hw]; omega)

theorem rawWordAt_rawAddr : rawWordAt p (BitVec.ofNat 16 (rawAddr w)) = some w := by
  obtain ⟨aligned, -, -, -⟩ := Params.bounds_of_wf hp
  have addr : (wordAddr (BitVec.ofNat 16 (rawAddr w))).toNat = 0x1000 + 4 * w := by
    rw [wordAddr_toNat, rawAddr_toNat hp hw]; omega
  rw [rawWordAt, addr, rawBase, if_pos (by omega), Nat.add_sub_cancel_left,
    Nat.mul_div_cancel_left w four_pos]

end

theorem busRead_rawAddr {s : State} {w : Nat} (hp : s.params.wf = true)
    (hw : 32 * w < s.params.rowMaxBits) :
    busRead s (BitVec.ofNat 16 (rawAddr w)) = s.rawWord w := by
  rw [busRead, regAt_rawAddr hp hw, rawWordAt_rawAddr hp hw]

theorem busWrite_rawAddr {s : State} {w : Nat} (hp : s.params.wf = true)
    (hw : 32 * w < s.params.rowMaxBits) (v : Word) :
    busWrite (BitVec.ofNat 16 (rawAddr w)) v s = .next (s.guarded (s.writeRaw w v)) := by
  rw [busWrite_noRegister (regAt_rawAddr hp hw), State.writeWindow, rawWordAt_rawAddr hp hw]

/-- Settles O45: on an idle block the write is `State.writeRaw`, and RAW's laws say the rest. -/
theorem rawWriteStoresItsWordOnly : Obligations.RawWriteStoresItsWordOnly := by
  intro s w v hp idle hw
  refine ⟨s.writeRaw w v, ?_, ?_, fun j hj => ?_, fun a ha => ?_, fun k hk => ?_, rfl⟩
  · exact (busWrite_rawAddr hp hw v).trans (by rw [State.guarded_of_idle idle])
  · exact (busRead_rawAddr (s := s.writeRaw w v) hp hw).trans (s.rawWord_writeRaw_same w v)
  · rw [State.rowBit_of_word _ w hj, State.rawWord_writeRaw_same]
  · exact s.rawByte_writeRaw_other w v a ha
  · rw [State.rowBit, State.rowBit, State.rawWord_writeRaw_other s v hk]

/-! ## The row while a command runs (O52) -/

/-- Settles O52: a host write is guarded while a command runs, and no other step writes an input. -/
theorem inputsStayFixedWhileACommandRuns : Obligations.InputsStayFixedWhileACommandRuns := by
  intro s t h noReset noPowerOn running
  cases step_next h with
  | noStatement | read => exact ⟨rfl, rfl, rfl, rfl, fun _ => rfl⟩
  | write turn a v rest stmt _ effect =>
    have busy : s.busy = true := s.busy_iff.mpr (running.resolve_right (by simp [turn]))
    obtain ⟨raw, rowLen, start, rowIdx, -⟩ := effect.keeps_of_busy busy
    obtain ⟨-, -, -, -, -, -, -, -, -, -, -, -, powerOns, -⟩ := effect.keeps
    exact ⟨raw, rowLen, start, rowIdx, congrFun (State.rowBit_congr raw powerOns)⟩
  | engine =>
    obtain ⟨-, raw, powerOns, rowLen, start, rowIdx, -⟩ := engineStep_keeps s.dropTurn
    exact ⟨raw, rowLen, start, rowIdx, congrFun (State.rowBit_congr raw powerOns)⟩
  | reset turn => exact absurd turn noReset
  | powerOn turn => exact absurd turn noPowerOn

/-! ## The row bits at L and above (O53) -/

/-- The block with another content of RAW. -/
def State.withRaw (raw : Memory) (s : State) : State := { s with raw := raw }

section
variable {s : State} {raw : Memory} (row : ∀ k < s.len, (s.withRaw raw).rowBit k = s.rowBit k)
include row

theorem State.searchFor_withRaw (ofs : Nat) : (s.withRaw raw).searchFor ofs = s.searchFor ofs :=
  searchFrom_congr row _ _

theorem State.manchAt_withRaw (ofs : Nat) : (s.withRaw raw).manchAt ofs = s.manchAt ofs :=
  State.manchAt_congr (s := s) (s' := s.withRaw raw) rfl rfl row ofs

theorem findScan_withRaw : findScan (s.withRaw raw) = (findScan s).withRaw raw := by
  have found : (s.withRaw raw).searchFor (s.withRaw raw).scanPos = s.searchFor s.scanPos :=
    State.searchFor_withRaw row _
  rw [findScan, findScan, found, apply_ite (State.withRaw raw)]
  rfl

theorem decodeScan_withRaw : decodeScan (s.withRaw raw) = (decodeScan s).withRaw raw := by
  have bits : (s.withRaw raw).manchAt ((s.withRaw raw).matchOfs + Config.markerLen) =
      s.manchAt (s.matchOfs + Config.markerLen) := State.manchAt_withRaw row _
  rw [decodeScan, decodeScan, bits, apply_ite (State.withRaw raw)]
  rfl

/-- The engine reads the row through its search and its decode only, and both stop at L (R63). -/
theorem engineStep_withRaw : engineStep (s.withRaw raw) = (engineStep s).withRaw raw := by
  rcases engineStep_cases s with ⟨disabled, e⟩ | ⟨he, hm, e⟩ | ⟨he, hm, e⟩ | ⟨he, hm, e⟩ |
    ⟨he, hm, e⟩ | ⟨he, hm, free, e⟩ | ⟨he, hm, free, e⟩ <;> rw [e]
  · exact engineStep_of_not_enabled (s := s.withRaw raw) disabled
  · rw [engineStep_findSingle (s := s.withRaw raw) he hm, findSingle, State.searchFor_withRaw row]
    rfl
  · rw [engineStep_findScan (s := s.withRaw raw) he hm, findScan_withRaw row]
  · rw [engineStep_decodeSingle (s := s.withRaw raw) he hm, decodeSingle, State.manchAt_withRaw row]
    rfl
  · rw [engineStep_decodeScan (s := s.withRaw raw) he hm, decodeScan_withRaw row]
  · rw [engineStep_extractSingle (s := s.withRaw raw) he hm free]
    rfl
  · rw [engineStep_extractScan (s := s.withRaw raw) he hm free]
    rfl

end

/-- Settles O53: the second state is the first with another RAW, which the engine step carries
along. -/
theorem bitsBeyondTheRowInfluenceNothing : Obligations.BitsBeyondTheRowInfluenceNothing := by
  intro s s' t hs row turn h
  have other : s' = s.withRaw s'.raw := hs
  generalize s'.raw = raw at other
  subst other
  have turn' : (s.withRaw raw).nextTurn = .engine := turn
  rw [step_engine turn] at h
  cases h
  obtain ⟨-, keepsRaw, -⟩ := engineStep_keeps s.dropTurn
  exact ⟨keepsRaw, (step_engine turn').trans
    (congrArg _ (engineStep_withRaw (s := s.dropTurn) (raw := raw) row))⟩

/-! ## The schedule (O59) -/

/-- A run of `n + 1` steps that answers a next state has a first step that does. -/
theorem run_succ_eq_next {M : Host.Core} {n : Nat} {s u : M.State}
    (h : M.run (n + 1) s = .next u) : ∃ t, M.step s = .next t ∧ M.run n t = .next u := by
  rw [Host.Core.run] at h
  split at h
  · next t hs => exact ⟨t, hs, h⟩
  · cases h
  · cases h

/-- A run takes one turn off the schedule with every step. -/
theorem core_run_turns {n : Nat} {s u : State} (h : core.run n s = .next u) :
    u.turns = s.turns.drop n := by
  induction n generalizing s with
  | zero => cases h; rfl
  | succ n ih =>
    obtain ⟨t, first, others⟩ := run_succ_eq_next h
    rw [ih others, step_turns first, List.drop_tail]

/-- Settles O59: a used-up schedule leaves the turn to an enabled engine. -/
theorem enabledEngineMovesWhenTheScheduleEnds :
    Obligations.EnabledEngineMovesWhenTheScheduleEnds := by
  intro s u h
  have usedUp : u.turns = [] := (core_run_turns h).trans List.drop_length
  refine ⟨usedUp, fun enabled => ?_⟩
  have turn : u.nextTurn = .engine := by simp [State.nextTurn, usedUp, enabled]
  have same : u.dropTurn = u := by rw [State.dropTurn, usedUp, List.tail_nil, ← usedUp]
  rw [step_engine turn, same]

/-! ## The host's writes and reads (O5, O39) -/

/-- Settles O5: `withFetchWord` places the write and its turn, which the step takes off again. -/
theorem stepRunsTheDecodedInstruction : Obligations.StepRunsTheDecodedInstruction := by
  refine ⟨fun s a v rest i turn stmt dec => ?_, fun s nbits w i h => ?_⟩
  · rw [step_write turn stmt, busWrite_of_decode dec]
  · exact (step_write (s := s.withFetchWord nbits w) rfl rfl).trans
      (busWrite_of_decode (decode_tableWrite h) s)

theorem step_read {s : State} {a : BusAddr} {rest : List HostOp} (turn : s.nextTurn = .host)
    (stmt : s.program = .read a :: rest) :
    step s = .next ({ s.dropTurn with program := rest }.note (busRead s a)) := by
  rw [step, turn, takeTurn, hostStep, State.dropTurn_program, stmt]
  rfl

/-- Settles O39: `readReg` at each address, where a short field has zeros above it, and the RAW word
in the window. -/
theorem readsHaveNoSideEffect : Obligations.ReadsHaveNoSideEffect := by
  refine ⟨fun s a rest turn stmt => step_read turn stmt, fun s => ?_,
    fun s w hp hw => busRead_rawAddr hp hw⟩
  have padded : ∀ {n : Nat} (x : BitVec n) (h : n ≤ 32),
      x.setWidth 32 = (0#(32 - n) ++ x).cast (Nat.sub_add_cancel h) :=
    fun x h => BitVec.setWidth_eq_append h
  exact ⟨rfl, rfl, padded s.irqEn (by decide), padded s.rowLen (by decide),
    padded s.start (by decide), padded s.rowIdx (by decide), padded s.matchPos (by decide),
    padded s.decCount (by decide), rfl, rfl, rfl, rfl, padded s.resFlags (by decide), rfl,
    padded s.resPos (by decide), rfl, rfl⟩

end Sys2Proof.Machine

namespace Sys2Proof

/-! ## The command words (O2) -/

/-- The six command words, and the command of each (R82). -/
theorem decodeCmd_eq_some_iff (v : Word) (i : Instr) : decodeCmd v = some i ↔
    (v = 0#32 ∧ i = .nop) ∨ (v = 1#32 ∧ i = .scanRow) ∨ (v = 2#32 ∧ i = .find) ∨
    (v = 3#32 ∧ i = .decode) ∨ (v = 4#32 ∧ i = .extract) ∨ (v = 5#32 ∧ i = .clearCounts) := by
  refine ⟨decodeCmd_eq_some, ?_⟩
  rintro (⟨rfl, rfl⟩ | ⟨rfl, rfl⟩ | ⟨rfl, rfl⟩ | ⟨rfl, rfl⟩ | ⟨rfl, rfl⟩ | ⟨rfl, rfl⟩) <;> rfl

/-- The fields of R81 say whether a word is one of the six (R82). -/
theorem cmd_fields_legal_iff (v : Word) :
    cmdReserved v = 0#28 ∧ (cmdOpcode v).toNat ≤ 5 ↔ v.toNat ≤ 5 := by
  rw [cmdReserved_eq_zero, cmdOpcode_toNat]
  omega

theorem exists_decodeCmd_iff (v : Word) : (∃ i, decodeCmd v = some i) ↔
    v.extractLsb' 4 28 = 0#28 ∧ (v.extractLsb' 0 4).toNat ≤ 5 := by
  refine .trans ?_ (cmd_fields_legal_iff v).symm
  constructor
  · rintro ⟨i, h⟩
    rcases decodeCmd_eq_some h with ⟨rfl, _⟩ | ⟨rfl, _⟩ | ⟨rfl, _⟩ | ⟨rfl, _⟩ | ⟨rfl, _⟩ |
      ⟨rfl, _⟩ <;> decide
  · intro h
    obtain ⟨n, hn, rfl⟩ : ∃ n ≤ 5, v = BitVec.ofNat 32 n := ⟨v.toNat, h, by simp⟩
    interval_cases n <;> exact ⟨_, rfl⟩

/-- The illegal command words (R86). -/
theorem decodeCmd_eq_none_iff (v : Word) :
    decodeCmd v = none ↔ v.extractLsb' 4 28 ≠ 0#28 ∨ 6 ≤ (v.extractLsb' 0 4).toNat := by
  rw [Option.eq_none_iff_forall_ne_some, ← not_exists, exists_decodeCmd_iff, not_and_or, not_le]
  rfl

/-- Settles O2: the decoder's case list and the fields of R81. -/
theorem commandWordsAreExactlyZeroToFive : Obligations.CommandWordsAreExactlyZeroToFive :=
  ⟨decodeCmd_eq_some_iff, exists_decodeCmd_iff⟩

/-! ## Decoding and encoding (O3) -/

theorem decode_command {a : BusAddr} {v : Word} {i : Instr} (h : regAt a = some .cmd)
    (hc : decodeCmd v = some i) : decode ⟨a, v⟩ = .ok i := by simp [decode, h, hc]

theorem decode_illegalCmd {a : BusAddr} {v : Word} (h : regAt a = some .cmd)
    (hc : decodeCmd v = none) : decode ⟨a, v⟩ = .error .illegalCmd := by simp [decode, h, hc]

/-- The encoding of a command is its word at CMD (R82). -/
theorem encode_of_decodeCmd {v : Word} {i : Instr} (h : decodeCmd v = some i) :
    encode i = ⟨Reg.addr .cmd, v⟩ := by
  rcases decodeCmd_eq_some h with ⟨rfl, rfl⟩ | ⟨rfl, rfl⟩ | ⟨rfl, rfl⟩ | ⟨rfl, rfl⟩ | ⟨rfl, rfl⟩ |
    ⟨rfl, rfl⟩ <;> rfl

/-- A write of an instruction's data to its register decodes to it, whatever the two low address bits are (R66). -/
theorem decode_of_eq_encode {w : BusWrite} {i : Instr} (addr : wordAddr w.addr = (encode i).addr)
    (data : w.data = (encode i).data) : decode w = .ok i := by
  obtain ⟨a, v⟩ := w
  obtain rfl : v = (encode i).data := data
  cases i with
  | resPop v => exact decode_resPop (regAt_of_wordAddr addr) v
  | statusW1c v => exact decode_status (regAt_of_wordAddr addr) v
  | nop | scanRow | find | decode | extract | clearCounts =>
    exact decode_command (regAt_of_wordAddr addr) rfl

/-- A write that decodes is the encoding of its instruction, up to the two low address bits. -/
theorem eq_encode_of_decode {w : BusWrite} {i : Instr} (h : decode w = .ok i) :
    wordAddr w.addr = (encode i).addr ∧ w.data = (encode i).data := by
  rcases decode_eq_ok h with ⟨addr, hc⟩ | ⟨addr, rfl⟩ | ⟨addr, rfl⟩
  · rw [encode_of_decodeCmd hc]
    exact ⟨regAt_eq_some addr, rfl⟩
  · exact ⟨regAt_eq_some addr, rfl⟩
  · exact ⟨regAt_eq_some addr, rfl⟩

theorem decode_eq_ok_iff (w : BusWrite) (i : Instr) :
    decode w = .ok i ↔ wordAddr w.addr = (encode i).addr ∧ w.data = (encode i).data :=
  ⟨eq_encode_of_decode, fun ⟨addr, data⟩ => decode_of_eq_encode addr data⟩

theorem Reg.wordAddr_addr (r : Reg) : wordAddr r.addr = r.addr := by cases r <;> rfl

theorem decode_encode (i : Instr) : decode (encode i) = .ok i :=
  decode_of_eq_encode (by cases i <;> exact Reg.wordAddr_addr _) rfl

/-- Settles O3: every instruction is well formed, so the round trip needs no premise. -/
theorem decodeAndEncodeAgree : Obligations.DecodeAndEncodeAgree :=
  ⟨fun i _ => decode_encode i, decode_eq_ok_iff⟩

/-! ## The opcode table (O1, O4) -/

/-- A CMD row whose mask has every bit set matches its one word (R91). -/
theorem TableRow.accepts_cmd (m : String) (p : Word) (w : BusWrite) :
    TableRow.accepts ⟨m, .cmd, p, 0xFFFFFFFF#32⟩ w = true ↔
      wordAddr w.addr = Reg.addr .cmd ∧ w.data = p := by
  have all : w.data &&& 0xFFFFFFFF#32 = w.data := BitVec.and_allOnes
  simp [TableRow.accepts, all]

/-- A BUS row whose mask clears the two low address bits matches its one word address (R66, R91). -/
theorem TableRow.accepts_bus (m : String) (a : BusAddr) (w : BusWrite) :
    TableRow.accepts ⟨m, .bus, a.setWidth 32, 0xFFFC#32⟩ w = true ↔ wordAddr w.addr = a := by
  have masked : w.addr.setWidth 32 &&& 0xFFFC#32 = (wordAddr w.addr).setWidth 32 :=
    (BitVec.setWidth_and (x := w.addr) (y := 0xFFFC#16)).symm
  have inj : ∀ x y : BusAddr, x.setWidth 32 = y.setWidth 32 ↔ x = y := fun x y => by
    simp [← BitVec.toNat_inj]; omega
  simp [TableRow.accepts, masked, inj]

/-- A command's mnemonic is no other instruction's. -/
theorem eq_of_mnemonic_command {v : Word} {i j : Instr} (hc : decodeCmd v = some i)
    (hm : j.mnemonic = i.mnemonic) : j = i := by
  rcases decodeCmd_eq_some hc with ⟨_, rfl⟩ | ⟨_, rfl⟩ | ⟨_, rfl⟩ | ⟨_, rfl⟩ | ⟨_, rfl⟩ | ⟨_, rfl⟩ <;>
    cases j <;> simp [Instr.mnemonic] at hm ⊢

theorem mnemonic_eq_resPop_iff (i : Instr) : i.mnemonic = "RES_POP" ↔ ∃ v, i = .resPop v := by
  cases i <;> simp [Instr.mnemonic]

theorem mnemonic_eq_statusW1c_iff (i : Instr) :
    i.mnemonic = "STATUS_W1C" ↔ ∃ v, i = .statusW1c v := by
  cases i <;> simp [Instr.mnemonic]

/-- The CMD row of a command accepts the writes that decode to it. -/
theorem TableRow.accepts_cmd_iff_decode {v : Word} {i : Instr} (hc : decodeCmd v = some i)
    (w : BusWrite) : TableRow.accepts ⟨i.mnemonic, .cmd, v, 0xFFFFFFFF#32⟩ w = true ↔
      ∃ j, decode w = .ok j ∧ j.mnemonic = i.mnemonic := by
  rw [accepts_cmd]
  constructor
  · rintro ⟨addr, rfl⟩
    exact ⟨i, decode_command (regAt_of_wordAddr addr) hc, rfl⟩
  · rintro ⟨j, dec, hm⟩
    obtain rfl := eq_of_mnemonic_command hc hm
    simpa [encode_of_decodeCmd hc] using eq_encode_of_decode dec

/-- The BUS row of a register write accepts the writes that decode to it, whatever their data. -/
theorem TableRow.accepts_bus_iff_decode {m : String} {a : BusAddr} {i : Word → Instr}
    (enc : ∀ v, encode (i v) = ⟨a, v⟩) (name : ∀ j : Instr, j.mnemonic = m ↔ ∃ v, j = i v)
    (w : BusWrite) : TableRow.accepts ⟨m, .bus, a.setWidth 32, 0xFFFC#32⟩ w = true ↔
      ∃ j, decode w = .ok j ∧ j.mnemonic = m := by
  rw [accepts_bus]
  constructor
  · intro addr
    have dec : decode w = .ok (i w.data) := by
      rw [decode_eq_ok_iff, enc]
      exact ⟨addr, rfl⟩
    exact ⟨i w.data, dec, (name _).mpr ⟨_, rfl⟩⟩
  · rintro ⟨j, dec, hm⟩
    obtain ⟨v, rfl⟩ := (name j).mp hm
    rw [decode_eq_ok_iff, enc] at dec
    exact dec.1

/-- Every row of the table accepts exactly the writes that decode to an instruction of its mnemonic. -/
theorem TableRow.accepts_iff_decode {r : TableRow} (hr : r ∈ opcodeTable) (w : BusWrite) :
    r.accepts w = true ↔ ∃ i, decode w = .ok i ∧ i.mnemonic = r.mnemonic := by
  simp only [opcodeTable, List.mem_cons, List.not_mem_nil, or_false] at hr
  rcases hr with rfl | rfl | rfl | rfl | rfl | rfl | rfl | rfl
  · exact accepts_cmd_iff_decode (i := .nop) rfl w
  · exact accepts_cmd_iff_decode (i := .scanRow) rfl w
  · exact accepts_cmd_iff_decode (i := .find) rfl w
  · exact accepts_cmd_iff_decode (i := .decode) rfl w
  · exact accepts_cmd_iff_decode (i := .extract) rfl w
  · exact accepts_cmd_iff_decode (i := .clearCounts) rfl w
  · exact accepts_bus_iff_decode (a := 0x00C#16) (fun _ => rfl) mnemonic_eq_resPop_iff w
  · exact accepts_bus_iff_decode (a := 0x004#16) (fun _ => rfl) mnemonic_eq_statusW1c_iff w

/-- Every instruction has a row of its mnemonic. -/
theorem exists_row_of_mnemonic (i : Instr) : ∃ r ∈ opcodeTable, r.mnemonic = i.mnemonic := by
  cases i <;> simp [opcodeTable, Instr.mnemonic]

/-- No two rows share a mnemonic. -/
theorem eq_of_row_mnemonic : ∀ r ∈ opcodeTable, ∀ r' ∈ opcodeTable,
    r.mnemonic = r'.mnemonic → r = r' := by
  decide

/-- What decodes is accepted by the row of its instruction's mnemonic. -/
theorem exists_row_of_decode {w : BusWrite} {i : Instr} (dec : decode w = .ok i) :
    ∃ r ∈ opcodeTable, r.accepts w = true ∧ r.mnemonic = i.mnemonic := by
  obtain ⟨r, hr, hm⟩ := exists_row_of_mnemonic i
  exact ⟨r, hr, (TableRow.accepts_iff_decode hr w).mpr ⟨i, dec, hm.symm⟩, hm⟩

/-- Settles O4: acceptance by a row is decoding to its mnemonic, and each row has its own. -/
theorem tableRowsAndDecoderAcceptTheSameWrites :
    Obligations.TableRowsAndDecoderAcceptTheSameWrites := by
  refine ⟨fun w i dec => exists_row_of_decode dec, ?_, ?_, fun w addr rejected => ?_⟩
  · rintro w ⟨r, hr, accepted⟩
    obtain ⟨i, dec, _⟩ := (TableRow.accepts_iff_decode hr w).mp accepted
    exact ⟨i, dec⟩
  · intro w r hr r' hr' accepted accepted'
    obtain ⟨i, dec, hm⟩ := (TableRow.accepts_iff_decode hr w).mp accepted
    obtain ⟨i', dec', hm'⟩ := (TableRow.accepts_iff_decode hr' w).mp accepted'
    cases dec.symm.trans dec'
    exact eq_of_row_mnemonic r hr r' hr' (hm.symm.trans hm')
  · have reg : regAt w.addr = some .cmd := regAt_of_wordAddr addr
    cases hc : decodeCmd w.data with
    | none => exact decode_illegalCmd reg hc
    | some i =>
      obtain ⟨r, hr, accepted, _⟩ := exists_row_of_decode (decode_command reg hc)
      simp [rejected r hr] at accepted

/-- Settles O1: closed words, which the decoder evaluates. -/
theorem tableWordsDecodeToTheirRows : Obligations.TableWordsDecodeToTheirRows := by
  unfold Obligations.TableWordsDecodeToTheirRows
  decide

end Sys2Proof

namespace Sys2Proof.Machine

/-! ## What an instruction leaves unchanged (O15) -/

/-- The effects an instruction can have, each with the instruction that has it: `HostEffect` without the writes that are
no instruction. -/
inductive ExecEffect (s : State) : Instr → State → Prop where
  | rejected (i : Instr) (command : ∃ v, decodeCmd v = some i) (c : ErrCode) :
      ExecEffect s i (s.reject c)
  | nop (idle : s.engine = .idle) : ExecEffect s .nop s.accept.setDone
  | clearCounts (idle : s.engine = .idle) : ExecEffect s .clearCounts s.accept.clearCounts.setDone
  | scanRow (idle : s.engine = .idle) :
      ExecEffect s .scanRow { s.startEngine .scan .find with scanPos := 0 }
  | find (idle : s.engine = .idle) : ExecEffect s .find (s.startEngine .single .find)
  | decode (idle : s.engine = .idle) : ExecEffect s .decode (s.startEngine .single .decode)
  | extract (idle : s.engine = .idle) : ExecEffect s .extract (s.startEngine .single .extract)
  | popped (v : Word) : ExecEffect s (.resPop v) s.pop
  | doneCleared (v : Word) :
      ExecEffect s (.statusW1c v) { s with done := s.done && !clearsDone v }

/-- A command is rejected while one runs, or its further checks decide on an idle block (R80). -/
theorem ExecEffect.of_whenIdle {i : Instr} {s t : State} {k : Result}
    (command : ∃ v, decodeCmd v = some i) (h : whenIdle s k = .next t)
    (accepted : s.engine = .idle → k = .next t → ExecEffect s i t) : ExecEffect s i t := by
  rcases whenIdle_next h with ⟨_, rfl⟩ | ⟨idle, hk⟩
  · exact .rejected i command _
  · exact accepted (s.not_busy_iff.mp idle) hk

/-- A row too long rejects the command, and any other starts it (R202). -/
theorem ExecEffect.of_whenRowOk {i : Instr} {s t u : State} (command : ∃ v, decodeCmd v = some i)
    (h : whenRowOk s (.next u) = .next t) (accepted : ExecEffect s i u) : ExecEffect s i t := by
  rcases whenRowOk_next h with ⟨_, rfl⟩ | ⟨_, _, hu⟩
  · exact .rejected i command _
  · cases hu; exact accepted

/-- Every next state of an instruction is one of its effects. -/
theorem exec_effect {i : Instr} {s t : State} (h : exec i s = .next t) : ExecEffect s i t := by
  cases i with
  | nop => exact .of_whenIdle ⟨0#32, rfl⟩ h fun idle hk => by cases hk; exact .nop idle
  | clearCounts =>
    exact .of_whenIdle ⟨5#32, rfl⟩ h fun idle hk => by cases hk; exact .clearCounts idle
  | scanRow =>
    exact .of_whenIdle ⟨1#32, rfl⟩ h fun idle hk => .of_whenRowOk ⟨1#32, rfl⟩ hk (.scanRow idle)
  | find => exact .of_whenIdle ⟨2#32, rfl⟩ h fun idle hk => .of_whenRowOk ⟨2#32, rfl⟩ hk (.find idle)
  | decode =>
    exact .of_whenIdle ⟨3#32, rfl⟩ h fun idle hk => .of_whenRowOk ⟨3#32, rfl⟩ hk (.decode idle)
  | extract =>
    refine .of_whenIdle ⟨4#32, rfl⟩ h fun idle hk => ?_
    rcases whenPayloadOk_next hk with ⟨_, rfl⟩ | ⟨_, ht⟩
    · exact .rejected _ ⟨4#32, rfl⟩ _
    · cases ht; exact .extract idle
  | resPop v => cases h; exact .popped v
  | statusW1c v => cases h; exact .doneCleared v

/-- No instruction stores to RAW, to an operand register or to IRQ_EN. -/
theorem ExecEffect.keeps_stored {i : Instr} {s t : State} (h : ExecEffect s i t) :
    t.raw = s.raw ∧ t.rowLen = s.rowLen ∧ t.start = s.start ∧ t.rowIdx = s.rowIdx ∧
    t.irqEn = s.irqEn := by
  cases h <;> exact ⟨rfl, rfl, rfl, rfl, rfl⟩

theorem ExecEffect.keeps_counts {i : Instr} {s t : State} (h : ExecEffect s i t)
    (hi : i ≠ .clearCounts) :
    t.readingCount = s.readingCount ∧ t.sanityFailCount = s.sanityFailCount := by
  cases h with
  | clearCounts => exact absurd rfl hi
  | _ => exact ⟨rfl, rfl⟩

theorem ExecEffect.keeps_resValid {i : Instr} {s t : State} (h : ExecEffect s i t)
    (hi : ∀ v, i ≠ .resPop v) : t.resValid = s.resValid := by
  cases h with
  | popped v => exact absurd rfl (hi v)
  | _ => rfl

theorem ExecEffect.keeps_scanPos {i : Instr} {s t : State} (h : ExecEffect s i t)
    (hi : i ≠ .scanRow) : t.scanPos = s.scanPos := by
  cases h with
  | scanRow => exact absurd rfl hi
  | _ => rfl

/-- The two bus rows are no commands (R91). -/
theorem not_command_of_bus {i : Instr} (h : ∃ v, i = .resPop v ∨ i = .statusW1c v) :
    ¬ ∃ w, decodeCmd w = some i := by
  rintro ⟨w, hc⟩
  obtain ⟨v, rfl | rfl⟩ := h <;> simp [decodeCmd_eq_some_iff] at hc

/-- The two bus rows leave ERR and the engine (R182, R183). -/
theorem ExecEffect.keeps_engine_of_bus {i : Instr} {s t : State} (h : ExecEffect s i t)
    (hi : ∃ v, i = .resPop v ∨ i = .statusW1c v) :
    t.err = s.err ∧ t.engine = s.engine ∧ t.mode = s.mode ∧ t.scanPos = s.scanPos := by
  cases h with
  | rejected _ command => exact absurd command (not_command_of_bus hi)
  | popped | doneCleared => exact ⟨rfl, rfl, rfl, rfl⟩
  | nop | clearCounts | scanRow | find | decode | extract => simp at hi

/-- Every command is refused while one runs, so a host write leaves the running one's engine state (R80). -/
theorem HostEffect.keeps_engine_of_running {s t : State} (h : HostEffect s t)
    (running : s.engine ≠ .idle) :
    t.engine = s.engine ∧ t.mode = s.mode ∧ t.scanPos = s.scanPos := by
  obtain ⟨-, -, -, -, engine, mode, scanPos, -⟩ := h.keeps_of_busy (s.busy_iff.mpr running)
  exact ⟨engine, mode, scanPos⟩

theorem State.rawByte_congr {s t : State} (raw : t.raw = s.raw)
    (powerOns : t.powerOns = s.powerOns) (a : Nat) : t.rawByte a = s.rawByte a := by
  simp only [State.rawByte, raw, powerOns]

/-- Settles O15: what every host write keeps, what every instruction keeps, and each exception by the instruction that
makes it. -/
theorem instructionFrame : Obligations.InstructionFrame := by
  intro i s t h
  have effect := exec_effect h
  obtain ⟨raw, rowLen, start, rowIdx, irqEn⟩ := effect.keeps_stored
  obtain ⟨params, found, sanityOk, matchPos, decCount, p0, p1, p2, resId, resFlags, resData,
    resPos, powerOns, program, noted, turns⟩ := (exec_next h).keeps
  refine ⟨State.rawByte_congr raw powerOns, raw, params, rowLen, start, rowIdx, irqEn, found,
    matchPos, sanityOk, decCount, p0, p1, p2, resId, resFlags, resData, resPos, program, noted,
    turns, powerOns, effect.keeps_counts, effect.keeps_resValid, effect.keeps_engine_of_bus,
    ?_, effect.keeps_scanPos, (exec_next h).keeps_engine_of_running⟩
  rintro ⟨v, rfl⟩
  cases h
  rfl

/-! ## A CMD write by the order of its checks (O16, O17) -/

/-- On an idle block, an illegal command word sets ERR = 1 (R86). -/
theorem busWrite_illegalCmd_of_idle {a : BusAddr} {v : Word} {s : State}
    (addr : regAt a = some .cmd) (illegal : decodeCmd v = none) (idle : s.engine = .idle) :
    busWrite a v s = .next (s.reject .illegalCmd) := by
  rw [busWrite, decode_illegalCmd addr illegal]
  exact whenIdle_of_idle _ (s.not_busy_iff.mpr idle)

/-- A command that reads the row, on an idle block whose row may be read: the third check of R80, with the opcodes it
is made for. -/
theorem rowCommand_of_idle {s : State} {op : Nat} (idle : s.engine = .idle) (reads : op ∈ [1, 2, 3])
    (readable : s.rowReadable = true) (t : State) : whenIdle s (whenRowOk s (.next t)) =
      .next (if op ∈ [1, 2, 3] ∧ s.params.rowMaxBits < s.len then s.reject .badLen else t) := by
  rw [whenIdle_of_idle _ (s.not_busy_iff.mpr idle)]
  by_cases long : s.params.rowMaxBits < s.len
  · rw [whenRowOk, if_pos long, if_pos ⟨reads, long⟩]
  · rw [whenRowOk_of_ok _ (not_lt.mp long) readable, if_neg fun h => long h.2]

/-- EXTRACT on an idle block: the fourth check of R80. -/
theorem exec_extract_of_idle {s : State} (idle : s.engine = .idle) : exec .extract s =
    .next (if s.sanityOk = false then s.reject .noPayload else s.startEngine .single .extract) := by
  refine (whenIdle_of_idle _ (s.not_busy_iff.mpr idle)).trans ?_
  cases payload : s.sanityOk <;> simp [whenPayloadOk, payload]

/-- Settles O16: BUSY, then the word, then the check of its command. -/
theorem cmdWriteFollowsTheDecisionOrder : Obligations.CmdWriteFollowsTheDecisionOrder := by
  intro s a v addr readable
  have reg : regAt a = some .cmd := regAt_of_wordAddr addr
  by_cases running : s.engine ≠ .idle
  · rw [if_pos running]
    exact busWrite_cmd_of_busy reg v (s.busy_iff.mpr running)
  rw [if_neg running]
  have idle : s.engine = .idle := not_not.mp running
  cases hc : decodeCmd v with
  | none =>
    rw [if_pos ((decodeCmd_eq_none_iff v).mp hc)]
    exact busWrite_illegalCmd_of_idle reg hc idle
  | some i =>
    have legal := (decodeCmd_eq_none_iff v).not.mp (by simp [hc])
    rw [if_neg legal, busWrite_of_decode (decode_command reg hc)]
    rcases decodeCmd_eq_some hc with ⟨rfl, rfl⟩ | ⟨rfl, rfl⟩ | ⟨rfl, rfl⟩ | ⟨rfl, rfl⟩ |
      ⟨rfl, rfl⟩ | ⟨rfl, rfl⟩
    · exact exec_nop_of_idle idle
    · exact rowCommand_of_idle idle (by decide) (readable (by decide)) _
    · exact rowCommand_of_idle idle (by decide) (readable (by decide)) _
    · exact rowCommand_of_idle idle (by decide) (readable (by decide)) _
    · have check : s.sanityOk = false ↔ 4 = 4 ∧ s.sanityOk = false := (and_iff_right rfl).symm
      have checked := exec_extract_of_idle idle
      rw [if_congr check rfl rfl] at checked
      exact checked
    · exact exec_clearCounts_of_idle idle

/-- Settles O17: the host's write of a word that decodes to no command. -/
theorem illegalCommandWordSetsErrOnly : Obligations.IllegalCommandWordSetsErrOnly := by
  intro s a v rest turn stmt addr idle illegal
  rw [step_write turn stmt]
  exact busWrite_illegalCmd_of_idle (regAt_of_wordAddr addr)
    ((decodeCmd_eq_none_iff v).mpr illegal.symm) idle

/-! ## The polling loops (O47) -/

theorem endsWaitIdle_statusWord (s : State) :
    endsWaitIdle s.statusWord = true ↔ s.engine = .idle := by
  obtain ⟨busy, -⟩ := s.statusWord_fields
  rw [endsWaitIdle, busy, Bool.not_eq_true', State.not_busy_iff]

theorem endsWaitEvent_statusWord (s : State) :
    endsWaitEvent s.statusWord = true ↔ s.engine = .idle ∨ s.resValid = true := by
  obtain ⟨busy, resValid, -⟩ := s.statusWord_fields
  rw [endsWaitEvent, busy, resValid, Bool.or_eq_true, Bool.not_eq_true', State.not_busy_iff]

theorem step_waitIdle {s : State} {rest : List HostOp} (turn : s.nextTurn = .host)
    (stmt : s.program = .waitIdle :: rest) :
    step s = .next (pollStatus endsWaitIdle rest s.dropTurn) := by
  rw [step, turn, takeTurn, hostStep, State.dropTurn_program, stmt]

theorem step_waitEvent {s : State} {rest : List HostOp} (turn : s.nextTurn = .host)
    (stmt : s.program = .waitEvent :: rest) :
    step s = .next (pollStatus endsWaitEvent rest s.dropTurn) := by
  rw [step, turn, takeTurn, hostStep, State.dropTurn_program, stmt]

/-- Settles O47: the loop reads `statusWord`, whose bits 0 and 1 are BUSY and RES_VALID (R22). -/
theorem pollingLoopsReadUntilTheirBit : Obligations.PollingLoopsReadUntilTheirBit := by
  refine ⟨fun s rest turn stmt => ?_, fun s rest turn stmt => ?_⟩
  · rw [step_waitIdle turn stmt, pollStatus_eq]
    simp only [endsWaitIdle_statusWord]
    rw [State.dropTurn_program, stmt]
    rfl
  · rw [step_waitEvent turn stmt, pollStatus_eq]
    simp only [endsWaitEvent_statusWord]
    rw [State.dropTurn_program, stmt]
    rfl

end Sys2Proof.Machine

namespace Sys2Proof.Machine

/-! ## The search (O21) -/

/-- A search answers the length, or an offset in its range where the marker occurs (R102). -/
theorem search_cases (row : Nat → Bool) (mk : BitVec 16) (len s : Nat) :
    search row mk len s = len ∨
    (s ≤ search row mk len s ∧ search row mk len s + 16 ≤ len ∧
      matchesAt row mk (search row mk len s) = true) :=
  searchFrom_cases row mk len _ s

/-- A search does not go past a match in its range. -/
theorem search_le_of_match {row : Nat → Bool} {mk : BitVec 16} {len s m : Nat} (lo : s ≤ m)
    (hi : m + 16 ≤ len) (found : matchesAt row mk m = true) : search row mk len s ≤ m := by
  by_contra past
  have skipped := searchFrom_skips lo (not_le.mp past) hi (by omega)
  exact Bool.false_ne_true (skipped.symm.trans found)

/-- Settles O21: a search answers a match or `L`, and passes over no match. -/
theorem searchReturnsTheLeastMatch : Obligations.SearchReturnsTheLeastMatch := by
  intro row mk len s
  refine ⟨fun ⟨m, lo, hi, bits⟩ => ?_, fun none => ?_, fun row' h => searchFrom_congr h _ _⟩
  · have le_m := search_le_of_match lo hi ((matchesAt_iff row mk m).mpr bits)
    rcases search_cases row mk len s with h | ⟨ge, fits, found⟩
    · omega
    · exact ⟨ge, fits, (matchesAt_iff _ _ _).mp found, fun k lo hi bits =>
        search_le_of_match lo hi ((matchesAt_iff row mk k).mpr bits)⟩
  · rcases search_cases row mk len s with h | ⟨ge, fits, found⟩
    · exact h
    · exact absurd ⟨_, ge, fits, (matchesAt_iff _ _ _).mp found⟩ none

/-! ## Matches of the marker (O22, O23) -/

/-- Two matches `d` apart make the marker agree with itself shifted by `d`. -/
theorem markerBit_of_two_matches {row : Nat → Bool} {mk : BitVec 16} {m d : Nat}
    (first : ∀ i < 16, row (m + i) = markerBit mk i)
    (second : ∀ i < 16, row (m + d + i) = markerBit mk i) {i : Nat} (hi : d + i < 16) :
    markerBit mk (d + i) = markerBit mk i := by
  rw [← first (d + i) hi, ← second i (by omega), Nat.add_assoc]

/-- The default marker agrees with itself shifted by 14 only (R107). -/
theorem defaultMarker_shift : ∀ d < 16, 1 ≤ d →
    (∀ i < 16 - d, markerBit 0x5559#16 (d + i) = markerBit 0x5559#16 i) → d = 14 := by decide

/-- Settles O22: the default marker's only shift, and the row of S7.0. -/
theorem defaultMarkerOverlapsOnlyFourteenApart :
    Obligations.DefaultMarkerOverlapsOnlyFourteenApart := by
  refine ⟨fun row m d pos lt first second => ?_, fun k => (0x55595564#32).getLsbD (31 - k), ?_⟩
  · exact defaultMarker_shift d (by omega) pos fun i hi =>
      markerBit_of_two_matches first second (by omega)
  · decide

/-- One differing bit rejects an offset (R105). -/
theorem matchesAt_eq_false {row : Nat → Bool} {mk : BitVec 16} {m i : Nat} (hi : i < 16)
    (differs : row (m + i) ≠ markerBit mk i) : matchesAt row mk m = false :=
  Bool.eq_false_iff.mpr fun found => differs ((matchesAt_iff row mk m).mp found i hi)

/-- Settles O23: the complement of a match differs in its first bit already. -/
theorem matchIsExactAndNotInverted : Obligations.MatchIsExactAndNotInverted := by
  refine ⟨fun row mk m i => matchesAt_eq_false, fun row mk m found => ?_⟩
  have bit : row (m + 0) = markerBit mk 0 := (matchesAt_iff row mk m).mp found 0 (by decide)
  exact matchesAt_eq_false (i := 0) (by decide) (bit ▸ Bool.not_ne_self _)

/-! ## The FIND step and the FIND command (O32, O10) -/

/-- A SINGLE-mode FIND step searches from START and ends the command (R104). -/
theorem step_findSingle {s : State} (turn : s.nextTurn = .engine) (he : s.engine = .find)
    (hm : s.mode = .single) :
    step s = .next (s.dropTurn.writeMatch (s.searchFor s.startOfs)).finish := by
  rw [step_engine turn, engineStep_findSingle (s := s.dropTurn) he hm]
  rfl

/-- Settles O32: `step_findSingle`, and in SCAN mode the two outcomes of `findScan_cases`. -/
theorem findStepSearchesTheRow : Obligations.FindStepSearchesTheRow := by
  constructor <;> rintro s _ turn he hm rfl
  · exact step_findSingle turn he hm
  · rw [step_engine turn, engineStep_findScan (s := s.dropTurn) he hm]
    rcases findScan_cases s.dropTurn with ⟨fits, e⟩ | ⟨short, e⟩ <;> rw [e]
    · exact ⟨fun _ => rfl, fun short => absurd fits (not_le.mpr short)⟩
    · exact ⟨fun fits => absurd fits (not_le.mpr short), fun _ => rfl⟩

/-- The first and the third check of R80 let a command through on an idle block with a legal, readable row. -/
theorem rowCommand_accepted {s : State} (idle : s.engine = .idle)
    (len : s.len ≤ s.params.rowMaxBits) (readable : s.rowReadable = true) (k : Result) :
    whenIdle s (whenRowOk s k) = k := by
  rw [whenIdle_of_idle _ (s.not_busy_iff.mpr idle), whenRowOk_of_ok _ len readable]

/-- Settles O10: FIND is accepted, and the accepted command's engine step is `step_findSingle`. -/
theorem findCommandSearchesFromStart : Obligations.FindCommandSearchesFromStart := by
  intro s ts idle len readable turns
  refine ⟨s.startEngine .single .find, rowCommand_accepted idle len readable _, rfl, ?_⟩
  rw [step_findSingle (s := s.startEngine .single .find) (State.nextTurn_cons turns) rfl rfl,
    State.finish, State.dropTurn, State.startEngine_turns, turns, ← idle]
  rfl

end Sys2Proof.Machine

namespace Sys2Proof.Machine

/-! ## The decode loop, pair by pair (O24, O25, O26, O27) -/

/-- The pair at offset `p` is available and valid: both bits lie inside the row, and they differ (R120, R122). -/
def ValidPair (row : Nat → Bool) (len p : Nat) : Prop := p + 2 ≤ len ∧ row p ≠ row (p + 1)

theorem manchFrom_of_valid {conv : ManchConv} {row : Nat → Bool} {len n p : Nat}
    (valid : ValidPair row len p) : manchFrom conv row len (n + 1) p =
      decodeBit conv (row p) (row (p + 1)) :: manchFrom conv row len n (p + 2) :=
  (manchFrom_succ conv row len n p).trans (if_pos valid)

theorem manchFrom_of_invalid {conv : ManchConv} {row : Nat → Bool} {len n p : Nat}
    (invalid : ¬ValidPair row len p) : manchFrom conv row len n p = [] := by
  cases n with
  | zero => rfl
  | succ n => exact (manchFrom_succ conv row len n p).trans (if_neg invalid)

/-- The loop produces `c` bits or more exactly if it may and the first `c` pairs are valid (R122). -/
theorem le_length_manchFrom_iff {conv : ManchConv} {row : Nat → Bool} {len n p c : Nat} :
    c ≤ (manchFrom conv row len n p).length ↔
      c ≤ n ∧ ∀ j < c, ValidPair row len (p + 2 * j) := by
  induction n generalizing p c with
  | zero => simp +contextual [manchFrom]
  | succ n ih =>
    cases c with
    | zero => simp
    | succ c =>
      have shift : ∀ j, p + 2 * (j + 1) = p + 2 + 2 * j := fun j => by omega
      rw [Nat.forall_lt_succ_left]
      by_cases first : ValidPair row len p
      · simp only [manchFrom_of_valid first, List.length_cons, Nat.add_le_add_iff_right, ih, shift]
        exact and_congr_right' (and_iff_right first).symm
      · rw [manchFrom_of_invalid first]
        exact ⟨nofun, fun ⟨_, valid, _⟩ => absurd valid first⟩

theorem le_length_manch_iff {conv : ManchConv} {row : Nat → Bool} {len s c : Nat} :
    c ≤ (manch conv row len s).length ↔ c ≤ 80 ∧ ∀ j < c, ValidPair row len (s + 2 * j) :=
  le_length_manchFrom_iff

/-- Every pair that produced a bit is valid. -/
theorem validPair_of_lt_length {conv : ManchConv} {row : Nat → Bool} {len n p i : Nat}
    (hi : i < (manchFrom conv row len n p).length) : ValidPair row len (p + 2 * i) :=
  (le_length_manchFrom_iff.mp hi).2 i (Nat.lt_succ_self i)

/-- A produced bit is the DecodeBit of its pair (R120, R122). -/
theorem payloadBit_manchFrom {conv : ManchConv} {row : Nat → Bool} {len n p i : Nat}
    (hi : i < (manchFrom conv row len n p).length) :
    payloadBit (manchFrom conv row len n p) i =
      decodeBit conv (row (p + 2 * i)) (row (p + 2 * i + 1)) := by
  induction n generalizing p i with
  | zero => exact absurd hi (Nat.not_lt_zero i)
  | succ n ih =>
    have first : ValidPair row len p := validPair_of_lt_length (Nat.zero_lt_of_lt hi)
    rw [manchFrom_of_valid first] at hi ⊢
    cases i with
    | zero => rfl
    | succ i =>
      have shift : p + 2 * (i + 1) = p + 2 + 2 * i := by omega
      rw [shift]
      exact ih (Nat.lt_of_succ_lt_succ hi)

theorem payloadBit_manch {conv : ManchConv} {row : Nat → Bool} {len s i : Nat}
    (hi : i < (manch conv row len s).length) : payloadBit (manch conv row len s) i =
      decodeBit conv (row (s + 2 * i)) (row (s + 2 * i + 1)) := payloadBit_manchFrom hi

/-- A decode is full exactly if 160 row bits remain and the 80 pairs in them are valid (R126). -/
theorem manch_length_eq_80_iff (conv : ManchConv) (row : Nat → Bool) (len s : Nat) :
    (manch conv row len s).length = 80 ↔
      s + 160 ≤ len ∧ ∀ i < 80, row (s + 2 * i) ≠ row (s + 2 * i + 1) := by
  rw [← (manch_length_le conv row len s).ge_iff_eq, le_length_manch_iff]
  constructor
  · intro ⟨_, valid⟩
    have last := (valid 79 (by decide)).1
    exact ⟨by omega, fun i hi => (valid i hi).2⟩
  · intro ⟨fits, differ⟩
    exact ⟨le_rfl, fun i hi => ⟨by omega, differ i hi⟩⟩

/-- The count is `min avail k`, `avail` pairs being in the row and `k` the first invalid one of them (R126). -/
theorem manch_length_eq_min {conv : ManchConv} {row : Nat → Bool} {len s k avail : Nat}
    (havail : avail = min 80 (if s ≤ len then (len - s) / 2 else 0))
    (before : ∀ i < avail, i < k → row (s + 2 * i) ≠ row (s + 2 * i + 1))
    (at_k : k < avail ∧ row (s + 2 * k) = row (s + 2 * k + 1) ∨ k = 80) :
    (manch conv row len s).length = min avail k := by
  have available : ∀ i, i < avail ↔ i < 80 ∧ s + 2 * i + 2 ≤ len := fun i => by
    split at havail <;> omega
  refine eq_of_forall_lt_iff fun i => ?_
  rw [Nat.lt_iff_add_one_le, le_length_manch_iff, lt_min_iff, available]
  constructor
  · intro ⟨lt, valid⟩
    refine ⟨⟨lt, (valid i (Nat.lt_succ_self i)).1⟩, ?_⟩
    rcases at_k with ⟨_, invalid⟩ | rfl
    · by_contra past
      exact (valid k (Nat.lt_succ_of_le (not_lt.mp past))).2 invalid
    · exact lt
  · intro ⟨⟨lt, fits⟩, lt_k⟩
    exact ⟨lt, fun j hj =>
      ⟨by omega, before j ((available j).mpr ⟨by omega, by omega⟩) (by omega)⟩⟩

/-- Only a decode that sets SANITY_OK goes on to EXTRACT (R126, R164). -/
theorem engineStep_decode_extract {s : State} (he : s.engine = .decode)
    (extract : (engineStep s).engine = .extract) : (engineStep s).sanityOk = true := by
  cases hm : s.mode with
  | single =>
    rw [engineStep_decodeSingle he hm] at extract
    cases extract
  | scan =>
    rw [engineStep_decodeScan he hm] at extract ⊢
    rcases decodeScan_cases s with ⟨full, e⟩ | ⟨_, e⟩ <;> rw [e] at extract ⊢
    · exact decide_eq_true full
    · cases extract

/-- Settles O24: `manch_length_eq_min` and `manch_length_eq_80_iff`; a DECODE step leaves the result slot as it is, and
goes on to EXTRACT only with SANITY_OK set. -/
theorem decodeCountInClosedForm : Obligations.DecodeCountInClosedForm := by
  refine ⟨fun conv row len s k avail havail before at_k =>
    ⟨manch_length_eq_min havail before at_k, manch_length_eq_80_iff conv row len s⟩,
    fun s t turn he h fails => ?_⟩
  have slot : t.resValid = s.resValid ∧ t.readingCount = s.readingCount ∧ t.resId = s.resId ∧
      t.resFlags = s.resFlags ∧ t.resData = s.resData ∧ t.resPos = s.resPos := by
    rcases (step_engineEffect h turn).slot with ⟨extract, _⟩ | kept
    · exact absurd (he.symm.trans extract) nofun
    · exact kept
  rw [step_engine turn] at h
  cases h
  exact ⟨fun extract => Bool.false_ne_true
    (fails.symm.trans (engineStep_decode_extract (s := s.dropTurn) he extract)), slot⟩

/-- Settles O25: `decodeBit` picks the second or the first bit of the pair. -/
theorem decodedBitsAreThePairBits : Obligations.DecodedBitsAreThePairBits := by
  intro row len s i conv hi
  obtain ⟨fits, valid⟩ := validPair_of_lt_length hi
  refine ⟨fits, valid, ?_, ?_⟩ <;> rintro rfl <;> exact payloadBit_manch hi

/-- The two bits of a valid pair are complements, so the two conventions' loops are too (R121). -/
theorem manchFrom_firstBit (row : Nat → Bool) (len n p : Nat) :
    manchFrom .firstBit row len n p = (manchFrom .secondBit row len n p).map (fun b => !b) := by
  induction n generalizing p with
  | zero => rfl
  | succ n ih =>
    by_cases valid : ValidPair row len p
    · have bit : decodeBit .firstBit (row p) (row (p + 1)) =
          !decodeBit .secondBit (row p) (row (p + 1)) := Bool.eq_not_of_ne valid.2
      rw [manchFrom_of_valid valid, manchFrom_of_valid valid, List.map_cons, ih, bit]
    · rw [manchFrom_of_invalid valid, manchFrom_of_invalid valid, List.map_nil]

/-- Settles O26: `manchFrom_firstBit`, and `map` keeps the length. -/
theorem otherConventionComplementsEveryBit : Obligations.OtherConventionComplementsEveryBit := by
  refine ⟨fun row len s => ?_, rfl⟩
  have complement : manch .firstBit row len s = (manch .secondBit row len s).map (fun b => !b) :=
    manchFrom_firstBit row len 80 s
  exact ⟨complement, by rw [complement, List.length_map]⟩

/-- Settles O27: the 80 pairs of the encoding are valid, and each decodes to the bit it encodes. -/
theorem manchesterEncodingDecodesBack : Obligations.ManchesterEncodingDecodesBack := by
  intro conv row len s d hd fits pairs
  have valid : ∀ i < 80, row (s + 2 * i) ≠ row (s + 2 * i + 1) := fun i hi => by
    rw [(pairs i hi).1, (pairs i hi).2]
    split <;> simp
  have bits : ∀ i < 80, decodeBit conv (row (s + 2 * i)) (row (s + 2 * i + 1)) = d.getD i false :=
    fun i hi => by
      rw [(pairs i hi).1, (pairs i hi).2]
      cases conv <;> rfl
  have full := (manch_length_eq_80_iff conv row len s).mpr ⟨fits, valid⟩
  refine List.ext_getElem (full.trans hd.symm) fun i hi hi' => ?_
  have bit := (payloadBit_manch hi).trans (bits i (hd ▸ hi'))
  rwa [payloadBit, List.getD_eq_getElem _ _ hi, List.getD_eq_getElem _ _ hi'] at bit

/-! ## The decoded bits in PAYLOAD (O28) -/

/-- Bits that hold the decode from `d[8q]` on still do with the next payload byte put behind them. -/
theorem append_payloadByteOf_getMsbD {n : Nat} {d : List Bool} {q : Nat} {x : BitVec n}
    (hx : ∀ j < n, x.getMsbD j = payloadBit d (8 * q + j)) {q' : Nat} (hq : 8 * q' = 8 * q + n)
    (j : Nat) (hj : j < n + 8) :
    (x ++ payloadByteOf d q').getMsbD j = payloadBit d (8 * q + j) := by
  rw [BitVec.getMsbD_append]
  split
  · rw [payloadByteOf_getMsbD d q' _ (by omega)]
    congr 1
    omega
  · exact hx j (by omega)

/-- Bit `j` from the left of two payload bytes is `d[8q + j]` (R38, R123). -/
theorem payloadPair_getMsbD (d : List Bool) (q : Nat) : ∀ j < 16,
    (payloadByteOf d q ++ payloadByteOf d (q + 1)).getMsbD j = payloadBit d (8 * q + j) :=
  append_payloadByteOf_getMsbD (payloadByteOf_getMsbD d q) (by omega)

/-- Bit `j` from the left of four payload bytes is `d[8q + j]` (R38, R123). -/
theorem payloadWord_getMsbD (d : List Bool) (q : Nat) : ∀ j < 32,
    (payloadByteOf d q ++ payloadByteOf d (q + 1) ++ payloadByteOf d (q + 2)
      ++ payloadByteOf d (q + 3)).getMsbD j = payloadBit d (8 * q + j) :=
  append_payloadByteOf_getMsbD
    (append_payloadByteOf_getMsbD (payloadPair_getMsbD d q) (by omega)) (by omega)

/-- Bit `31 - j` of a word is its bit `j` from the left. -/
theorem getLsbD_sub_eq_getMsbD (v : Word) {j : Nat} (hj : j < 32) :
    v.getLsbD (31 - j) = v.getMsbD j := by
  simp [BitVec.getMsbD_eq_getLsbD, hj]

/-- A DECODE step in either mode leaves the bytes of its decode in PAYLOAD0..2 (R123, R124, R164). -/
theorem step_decode_payload {s t : State} (h : step s = .next t) (turn : s.nextTurn = .engine)
    (he : s.engine = .decode) {d : List Bool} (hd : d = s.manchAt s.decodeOfs) :
    t.payload0 = payloadByteOf d 0 ++ payloadByteOf d 1 ++ payloadByteOf d 2 ++ payloadByteOf d 3 ∧
    t.payload1 = payloadByteOf d 4 ++ payloadByteOf d 5 ++ payloadByteOf d 6 ++ payloadByteOf d 7 ∧
    t.payload2 = payloadByteOf d 8 ++ payloadByteOf d 9 := by
  rw [step_engine turn] at h
  cases h
  subst hd
  obtain ⟨p0, p1, p2, -⟩ := (engineStep_decode (s := s.dropTurn) he).keeps_decoded
  exact ⟨p0, p1, p2⟩

/-- Settles O28: the three registers, bit by bit from the left. -/
theorem payloadRegistersHoldTheDecodedBits : Obligations.PayloadRegistersHoldTheDecodedBits := by
  intro s t d turn he hd h j hj
  have decoded : d = s.manchAt s.decodeOfs := by
    rw [hd, State.decodeOfs]
    cases s.mode <;> rfl
  obtain ⟨p0, p1, p2⟩ := step_decode_payload h turn he decoded
  have r0 : busRead t 0x024#16 = t.payload0 := rfl
  have r1 : busRead t 0x028#16 = t.payload1 := rfl
  have r2 : busRead t 0x02C#16 = t.payload2 ++ 0#16 := rfl
  rw [getLsbD_sub_eq_getMsbD _ hj, getLsbD_sub_eq_getMsbD _ hj, getLsbD_sub_eq_getMsbD _ hj,
    r0, r1, r2, p0, p1, p2]
  refine ⟨?_, payloadWord_getMsbD d 4 j hj, ?_⟩
  · simpa [payloadBit] using payloadWord_getMsbD d 0 j hj
  · rw [BitVec.getMsbD_append]
    split
    · next low => simp [Nat.not_lt.mpr low]
    · next high =>
      have high : j < 16 := not_le.mp high
      rw [payloadPair_getMsbD d 8 j high, decide_eq_true high]
      rfl

/-! ## The DECODE step and the DECODE command (O33, O11) -/

/-- A SINGLE-mode DECODE step decodes from START and ends the command (R124). -/
theorem step_decodeSingle {s : State} (turn : s.nextTurn = .engine) (he : s.engine = .decode)
    (hm : s.mode = .single) :
    step s = .next (s.dropTurn.writeDecode (s.manchAt s.startOfs)).finish := by
  rw [step_engine turn, engineStep_decodeSingle (s := s.dropTurn) he hm]
  rfl

/-- What a full decode writes: SANITY_OK, and no failure is counted (R124, R126). -/
theorem State.writeDecode_of_full (s : State) {d : List Bool} (full : d.length = 80) :
    s.writeDecode d = { s with
      decCount := 80#7
      payload0 := payloadByteOf d 0 ++ payloadByteOf d 1 ++ payloadByteOf d 2 ++ payloadByteOf d 3
      payload1 := payloadByteOf d 4 ++ payloadByteOf d 5 ++ payloadByteOf d 6 ++ payloadByteOf d 7
      payload2 := payloadByteOf d 8 ++ payloadByteOf d 9
      sanityOk := true } := by
  simp [State.writeDecode, full]

/-- What a failed decode writes: SANITY_OK is cleared, and the failure is counted (R124, R126). -/
theorem State.writeDecode_of_short (s : State) {d : List Bool} (short : d.length ≠ 80) :
    s.writeDecode d = { s with
      decCount := BitVec.ofNat 7 d.length
      payload0 := payloadByteOf d 0 ++ payloadByteOf d 1 ++ payloadByteOf d 2 ++ payloadByteOf d 3
      payload1 := payloadByteOf d 4 ++ payloadByteOf d 5 ++ payloadByteOf d 6 ++ payloadByteOf d 7
      payload2 := payloadByteOf d 8 ++ payloadByteOf d 9
      sanityOk := false
      sanityFailCount := s.sanityFailCount + 1#32 } := by
  simp [State.writeDecode, short]

/-- Settles O33: `step_decodeSingle`, and in SCAN mode the two outcomes of `decodeScan_cases`. -/
theorem decodeStepDecodesTheRow : Obligations.DecodeStepDecodesTheRow := by
  constructor <;> rintro s _ turn he hm rfl
  · exact step_decodeSingle turn he hm
  · rw [step_engine turn, engineStep_decodeScan (s := s.dropTurn) he hm]
    rcases decodeScan_cases s.dropTurn with ⟨full, e⟩ | ⟨short, e⟩ <;> rw [e]
    · rw [State.writeDecode_of_full _ full]
      exact ⟨fun _ => rfl, fun short => absurd full short⟩
    · rw [State.writeDecode_of_short _ short]
      exact ⟨fun full => absurd full short, fun _ => rfl⟩

/-- Settles O11: DECODE is accepted, and the accepted command's engine step is `step_decodeSingle`. -/
theorem decodeCommandDecodesFromStart : Obligations.DecodeCommandDecodesFromStart := by
  rintro s ts _ idle len readable turns rfl
  refine ⟨s.startEngine .single .decode, rowCommand_accepted idle len readable _, rfl, ?_⟩
  rw [step_decodeSingle (s := s.startEngine .single .decode) (State.nextTurn_cons turns) rfl rfl,
    State.finish, State.dropTurn, State.startEngine_turns, turns, ← idle]
  rfl

end Sys2Proof.Machine

namespace Sys2Proof.Machine

/-! ## The EXTRACT step and the EXTRACT command (O30, O12) -/

/-- An enabled EXTRACT step in SINGLE mode emits the reading and ends the command (R144). -/
theorem step_extractSingle {s : State} (turn : s.nextTurn = .engine) (he : s.engine = .extract)
    (hm : s.mode = .single) (free : s.resValid = false) :
    step s = .next s.dropTurn.emit.finish := by
  rw [step_engine turn, engineStep_extractSingle (s := s.dropTurn) he hm free]
  rfl

/-- Settles O30: `step_extractSingle` with the reading's fields written out by `State.emit_eq`; with the slot full, the
engine step is the hold. -/
theorem extractStepEmitsOrHolds : Obligations.ExtractStepEmitsOrHolds := by
  refine ⟨fun s turn he hm free => ?_, fun s turn he full => ?_⟩
  · rw [step_extractSingle turn he hm free, State.emit_eq]
    rfl
  · rw [step_engine turn, engineStep_hold (s := s.dropTurn) he full]

/-- Settles O12: EXTRACT is accepted, and the accepted command's engine step is `step_extractSingle`. -/
theorem extractCommandFillsTheResultSlot : Obligations.ExtractCommandFillsTheResultSlot := by
  intro s ts idle payload free turns
  have accepted : exec .extract s = .next (s.startEngine .single .extract) := by
    rw [exec_extract_of_idle idle, if_neg (by simp [payload])]
  refine ⟨s.startEngine .single .extract, accepted, rfl, ?_⟩
  rw [step_extractSingle (s := s.startEngine .single .extract) (State.nextTurn_cons turns) rfl rfl
    free, State.emit_eq, State.finish, State.dropTurn, State.startEngine_turns, turns, ← idle]
  rfl

/-! ## Payload byte 9 (O31) -/

/-- Settles O31: the layout of PAYLOAD2 puts `b9` below `b8`, and of PAYLOAD2 a reading holds `b8` alone. -/
theorem byteNineChangesNoReading : Obligations.ByteNineChangesNoReading := by
  intro s b8 b9 b9'
  have upper : ∀ b : Byte, (b8 ++ b).extractLsb' 8 8 = b8 := fun _ =>
    BitVec.extractLsb'_append_eq_left
  constructor
  · rw [State.readReg, BitVec.extractLsb'_append_eq_of_le (by decide)]
    exact BitVec.extractLsb'_append_eq_right
  · simp only [State.emit_eq, upper]

/-! ## The fields of a reading as decoded bits (O29) -/

/-- Bit `j` from the left of payload byte `q` is payload bit `8q + j` (R38). -/
theorem State.payloadByte_getMsbD (s : State) {q j : Nat} (hq : q < 10) (hj : j < 8) :
    (s.payloadByte q).getMsbD j = s.payload.getMsbD (8 * q + j) := by
  have inside : 72 - 8 * q + 8 - j ≤ 80 := by omega
  have place : 80 - (72 - 8 * q + 8 - j) = 8 * q + j := by omega
  rw [State.payloadByte, BitVec.getMsbD_extractLsb', decide_eq_true hj, decide_eq_true inside,
    place, Bool.true_and, Bool.true_and]

/-- PAYLOAD0..2 after a decode hold its bits in order, the first one most significant (R38, R123). -/
theorem State.writeDecode_payload_getMsbD (s : State) (d : List Bool) {j : Nat} (hj : j < 80) :
    (s.writeDecode d).payload.getMsbD j = payloadBit d j := by
  rw [State.payload, BitVec.getMsbD_append, BitVec.getMsbD_append]
  split
  · next h2 =>
    rw [State.writeDecode_payload2, payloadPair_getMsbD d 8 _ (by omega), Nat.add_sub_cancel' h2]
  · split
    · next h1 =>
      rw [State.writeDecode_payload1, payloadWord_getMsbD d 4 _ (by omega), Nat.add_sub_cancel' h1]
    · rw [State.writeDecode_payload0, payloadWord_getMsbD d 0 _ (by omega), Nat.zero_add]

/-- Bit `j` from the left of payload byte `q` after a decode is `d[8q + j]`. -/
theorem State.writeDecode_payloadByte_getMsbD (s : State) (d : List Bool) {q j : Nat} (hq : q < 10)
    (hj : j < 8) : ((s.writeDecode d).payloadByte q).getMsbD j = payloadBit d (8 * q + j) :=
  (State.payloadByte_getMsbD _ hq hj).trans (s.writeDecode_payload_getMsbD d (by omega))

/-- Bit `j` from the left of each byte, as a bit of the word the four bytes make. -/
theorem getLsbD_of_bytes (b3 b2 b1 b0 : Byte) {j : Nat} (hj : j < 8) :
    (b3 ++ b2 ++ b1 ++ b0).getLsbD (7 - j) = b0.getMsbD j ∧
    (b3 ++ b2 ++ b1 ++ b0).getLsbD (15 - j) = b1.getMsbD j ∧
    (b3 ++ b2 ++ b1 ++ b0).getLsbD (23 - j) = b2.getMsbD j ∧
    (b3 ++ b2 ++ b1 ++ b0).getLsbD (31 - j) = b3.getMsbD j := by
  simp only [BitVec.getLsbD_append, BitVec.getMsbD_eq_getLsbD]
  interval_cases j <;> simp

/-- Bit `j` from the left of RES_FLAGS[7:0] is `d[32 + j]` (R140, R145). -/
theorem State.writeDecode_emit_resFlags_getLsbD (s : State) (d : List Bool) {j : Nat} (hj : j < 8) :
    (s.writeDecode d).emit.resFlags.getLsbD (7 - j) = payloadBit d (32 + j) := by
  have low : 7 - j < 8 := by omega
  rw [← s.writeDecode_payloadByte_getMsbD d (q := 4) (by decide) hj, State.emit_resFlags,
    BitVec.getLsbD_append, if_pos low, BitVec.getMsbD_eq_getLsbD, decide_eq_true hj]
  rfl

/-- Bit `j` from the left of byte `k` of RES_DATA, the lowest byte first, is `d[40 + 8k + j]` (R140, R145). -/
theorem State.writeDecode_emit_resData_getLsbD (s : State) (d : List Bool) {k j : Nat} (hk : k < 4)
    (hj : j < 8) :
    (s.writeDecode d).emit.resData.getLsbD (8 * k + 7 - j) = payloadBit d (8 * (5 + k) + j) := by
  rw [← s.writeDecode_payloadByte_getMsbD d (by omega) hj, State.emit_resData]
  obtain ⟨first, second, third, fourth⟩ := getLsbD_of_bytes ((s.writeDecode d).payloadByte 8)
    ((s.writeDecode d).payloadByte 7) ((s.writeDecode d).payloadByte 6)
    ((s.writeDecode d).payloadByte 5) hj
  interval_cases k
  exacts [first, second, third, fourth]

/-- Bit `j` from the left of RES_ID is `d[j]` (R39, R140). -/
theorem State.writeDecode_emit_resId_getLsbD (s : State) (d : List Bool) {j : Nat} (hj : j < 32) :
    (s.writeDecode d).emit.resId.getLsbD (31 - j) = payloadBit d j := by
  rw [State.emit_resId, State.payloadBytes_resId, getLsbD_sub_eq_getMsbD _ hj,
    State.writeDecode_payload0, payloadWord_getMsbD d 0 j hj, Nat.zero_add]

/-- Settles O29: RES_ID bit by bit, the three fields of RES_FLAGS from `d[32]`, `d[33]` and `d[36]` on with INTEGRITY
above them, and the four bytes of RES_DATA. -/
theorem readingFieldsAreTheDecodedBits : Obligations.ReadingFieldsAreTheDecodedBits := by
  intro s d _
  refine ⟨fun j => s.writeDecode_emit_resId_getLsbD d,
    s.writeDecode_emit_resFlags_getLsbD d (j := 0) (by decide),
    fun j hj => ?_, fun j hj => ?_, BitVec.extractLsb'_append_eq_left,
    fun j => s.writeDecode_emit_resData_getLsbD d (k := 0) (by decide),
    fun j => s.writeDecode_emit_resData_getLsbD d (k := 1) (by decide),
    fun j => s.writeDecode_emit_resData_getLsbD d (k := 2) (by decide),
    fun j => s.writeDecode_emit_resData_getLsbD d (k := 3) (by decide)⟩
  · have bit := s.writeDecode_emit_resFlags_getLsbD d (j := 1 + j) (by omega)
    rwa [← Nat.sub_sub, ← Nat.add_assoc] at bit
  · have bit := s.writeDecode_emit_resFlags_getLsbD d (j := 4 + j) (by omega)
    rwa [← Nat.sub_sub, ← Nat.add_assoc] at bit

end Sys2Proof.Machine

namespace Sys2Proof.Machine

/-! ## The SCAN_ROW command and the steps of a scan (O13, O14, O34) -/

/-- What SCAN_ROW's acceptance writes: mode SCAN, state FIND and SCAN_POS 0 (R83, R160). -/
def State.startScan (s : State) : State := { s.startEngine .scan .find with scanPos := 0 }

/-- SCAN_ROW is accepted on an idle block with a legal, readable row (R83, R160). -/
theorem exec_scanRow_accepted {s : State} (idle : s.engine = .idle)
    (len : s.len ≤ s.params.rowMaxBits) (readable : s.rowReadable = true) :
    exec .scanRow s = .next s.startScan :=
  rowCommand_accepted idle len readable _

/-- Settles O13: the accepted state, written out. -/
theorem scanRowCommandStartsAtOffsetZero : Obligations.ScanRowCommandStartsAtOffsetZero :=
  fun _ idle len readable => exec_scanRow_accepted idle len readable

/-- The engine goes on in the state `e`. -/
def State.goOn (e : EngineState) (s : State) : State := { s with engine := e }

/-- A SCAN-mode FIND step goes on to a decode if a packet fits behind the match (R163). -/
theorem step_findScan_of_fits {s : State} {m : Nat} (turn : s.nextTurn = .engine)
    (he : s.engine = .find) (hm : s.mode = .scan) (found : s.searchFor s.scanPos = m)
    (fits : m + 176 ≤ s.len) : step s = .next ((s.dropTurn.writeMatch m).goOn .decode) := by
  subst found
  rw [step_engine turn, engineStep_findScan (s := s.dropTurn) he hm, findScan]
  exact congrArg _ (if_pos fits)

/-- A SCAN-mode FIND step ends the command if no packet fits behind the match (R163, R167). -/
theorem step_findScan_of_short {s : State} (turn : s.nextTurn = .engine) (he : s.engine = .find)
    (hm : s.mode = .scan) (short : s.len < s.searchFor s.scanPos + 176) :
    step s = .next (s.dropTurn.writeMatch (s.searchFor s.scanPos)).finish := by
  rw [step_engine turn, engineStep_findScan (s := s.dropTurn) he hm, findScan]
  exact congrArg _ (if_neg (not_le.mpr short))

/-- A SCAN-mode DECODE step with 80 valid pairs goes on to EXTRACT (R164). -/
theorem step_decodeScan_of_full {s : State} {d : List Bool} (turn : s.nextTurn = .engine)
    (he : s.engine = .decode) (hm : s.mode = .scan) (bits : s.manchAt (s.matchOfs + 16) = d)
    (full : d.length = 80) : step s = .next ((s.dropTurn.writeDecode d).goOn .extract) := by
  subst bits
  rw [step_engine turn, engineStep_decodeScan (s := s.dropTurn) he hm, decodeScan]
  exact congrArg _ (if_pos full)

/-- An enabled EXTRACT step in SCAN mode emits the reading and resumes the scan (R165). -/
theorem step_extractScan {s : State} (turn : s.nextTurn = .engine) (he : s.engine = .extract)
    (hm : s.mode = .scan) (free : s.resValid = false) :
    step s = .next s.dropTurn.emit.resumeScan := by
  rw [step_engine turn, engineStep_extractScan (s := s.dropTurn) he hm free]
  rfl

/-- Settles O14: no packet fits into the row, so the first FIND step is the last. -/
theorem shortRowEndsAfterOneFindStep : Obligations.ShortRowEndsAfterOneFindStep := by
  intro s ts idle len readable short turns
  have tail : s.startScan.turns.tail = ts := congrArg List.tail turns
  refine ⟨s.startScan, exec_scanRow_accepted idle len readable, ?_⟩
  rw [step_findScan_of_short (s := s.startScan) (State.nextTurn_cons turns) rfl rfl
    (Nat.lt_add_left _ short), State.dropTurn, tail, idle]
  rfl

/-- Settles O34: `step_extractScan` with the reading's fields written out by `State.emit_eq`. -/
theorem extractStepInScanMode : Obligations.ExtractStepInScanMode := by
  intro s turn he hm free
  rw [step_extractScan turn he hm free, State.emit_eq]
  rfl

/-! ## A decode of a scan, and the way back to its search (O35, O36) -/

/-- Settles O35: the invariant leaves room for a packet behind the match, so a decode that is not full has an invalid
pair among its 80. -/
theorem scanFailureIsAnInvalidPair : Obligations.ScanFailureIsAnInvalidPair := by
  intro s t inv turn he hm h
  obtain ⟨-, room⟩ := inv.room_of_scan hm (.inl he)
  refine ⟨room, fun fails => ?_⟩
  by_contra valid
  push Not at valid
  have full : (s.manchAt (s.matchOfs + 16)).length = 80 :=
    (manch_length_eq_80_iff _ _ _ _).mpr ⟨room, valid⟩
  rw [step_decodeScan_of_full turn he hm rfl full] at h
  cases h
  exact absurd full (of_decide_eq_false fails)

/-- A search whose match has a packet behind it found that match at or after its start (R102). -/
theorem State.le_searchFor_of_fits {s : State} {ofs : Nat} (fits : s.searchFor ofs + 176 ≤ s.len) :
    ofs ≤ s.searchFor ofs := by
  rcases search_cases s.rowBit s.params.marker s.len ofs with none | ⟨ge, -, -⟩
  · rw [State.searchFor, none] at fits
    omega
  · exact ge

/-- A step of a scan that goes back to FIND resumes it from the present match (R164 to R166). -/
theorem step_resumes {s t : State} (h : step s = .next t) (turn : s.nextTurn = .engine)
    (state : s.engine = .decode ∨ s.engine = .extract) (hm : s.mode = .scan)
    (back : t.engine = .find) : t.scanPos = s.resumeOfs ∧ t.matchPos = s.matchPos := by
  rw [step_engine turn, Host.Outcome.next.injEq] at h
  subst h
  rcases state with he | he
  · rw [engineStep_decodeScan (s := s.dropTurn) he hm] at back ⊢
    rcases decodeScan_cases s.dropTurn with ⟨_, e⟩ | ⟨_, e⟩ <;> rw [e] at back ⊢
    · cases back
    · exact ⟨rfl, rfl⟩
  · cases hv : s.resValid with
    | true =>
      rw [engineStep_hold (s := s.dropTurn) he hv] at back
      exact absurd (he.symm.trans back) nofun
    | false =>
      rw [engineStep_extractScan (s := s.dropTurn) he hm hv]
      exact ⟨rfl, rfl⟩

/-- Settles O36: a FIND that goes on has a match in its range, and SCAN_STEP is at least 1 in a legal build. -/
theorem scanSearchesStrictlyAdvance : Obligations.ScanSearchesStrictlyAdvance := by
  refine ⟨fun s t turn he hm h goesOn => ?_, fun s t inv turn state hm h back => ?_⟩
  · rcases Nat.lt_or_ge s.len (s.searchFor s.scanPos + 176) with short | fits
    · rw [step_findScan_of_short turn he hm short] at h
      cases h
      cases goesOn
    · rw [step_findScan_of_fits turn he hm rfl fits] at h
      cases h
      have found : (s.writeMatch (s.searchFor s.scanPos)).matchOfs = s.searchFor s.scanPos :=
        State.writeMatch_matchOfs (s.searchFor_le _)
      exact ⟨(State.le_searchFor_of_fits fits).trans_eq found.symm, rfl⟩
  · obtain ⟨resumed, kept⟩ := step_resumes h turn state hm back
    obtain ⟨-, -, step_pos, -⟩ := Params.bounds_of_wf inv.params_wf
    exact ⟨resumed, resumed ▸ Nat.lt_add_of_pos_right step_pos, kept⟩

end Sys2Proof.Machine

namespace Sys2Proof.Machine

/-! ## A row of one packet (O38) -/

/-- The block after a scan has found a match at `m`, decoded `d` behind it and emitted the reading. -/
def State.readPacket (m : Nat) (d : List Bool) (s : State) : State :=
  ((s.writeMatch m).writeDecode d).emit.resumeScan

/-- A FIND, a DECODE and an EXTRACT step of a scan read the packet behind a match (R163 to R165). -/
theorem core_run_readPacket {s : State} {m : Nat} {d : List Bool} {ts : List Turn} (n : Nat)
    (turns : s.turns = [.engine, .engine, .engine] ++ ts) (he : s.engine = .find)
    (hm : s.mode = .scan) (free : s.resValid = false) (found : s.searchFor s.scanPos = m)
    (fits : m + 176 ≤ s.len) (bits : s.manchAt (m + 16) = d) (full : d.length = 80) :
    core.run (n + 3) s = core.run n (s.dropTurn.dropTurn.dropTurn.readPacket m d) := by
  have turns1 : s.turns.tail = .engine :: .engine :: ts := congrArg List.tail turns
  have turns2 : s.turns.tail.tail = .engine :: ts := congrArg List.tail turns1
  have at_m : (s.dropTurn.writeMatch m).matchOfs = m :=
    State.writeMatch_matchOfs (s := s.dropTurn) (found ▸ s.searchFor_le _)
  have bits1 : s.manchAt ((s.dropTurn.writeMatch m).matchOfs + 16) = d := by rw [at_m, bits]
  have find := step_findScan_of_fits (State.nextTurn_cons turns) he hm found fits
  have decode := step_decodeScan_of_full (s := (s.dropTurn.writeMatch m).goOn .decode)
    (State.nextTurn_cons turns1) rfl hm bits1 full
  have extract := step_extractScan
    (s := (((s.dropTurn.writeMatch m).goOn .decode).dropTurn.writeDecode d).goOn .extract)
    (State.nextTurn_cons turns2) rfl hm free
  rw [core_run_next _ find, core_run_next _ decode, core_run_next _ extract,
    State.readPacket, State.emit_eq, State.emit_eq]
  rfl

/-- Pairs that are valid and decode to the 80 bits of `d` are the decode `d` (R120, R122). -/
theorem manch_eq_of_pairs {conv : ManchConv} {row : Nat → Bool} {len s : Nat} {d : List Bool}
    (hd : d.length = 80) (fits : s + 160 ≤ len)
    (pairs : ∀ i < 80, row (s + 2 * i) ≠ row (s + 2 * i + 1) ∧
      d.getD i false = decodeBit conv (row (s + 2 * i)) (row (s + 2 * i + 1))) :
    manch conv row len s = d := by
  have full := (manch_length_eq_80_iff conv row len s).mpr ⟨fits, fun i hi => (pairs i hi).1⟩
  refine List.ext_getElem (full.trans hd.symm) fun i hi hi' => ?_
  have bit := (payloadBit_manch hi).trans (pairs i (hd ▸ hi')).2.symm
  rwa [payloadBit, List.getD_eq_getElem _ _ hi, List.getD_eq_getElem _ _ hi'] at bit

/-- Where no packet fits behind a search's start, none fits behind its match. -/
theorem State.searchFor_short {s : State} {ofs : Nat} (short : s.len < ofs + 176) :
    s.len < s.searchFor ofs + 176 := by
  by_contra fits
  have := State.le_searchFor_of_fits (not_lt.mp fits)
  omega

/-- Settles O38: the first search stops at offset 0, the packet there is read, and no packet fits behind a later
match. -/
theorem rowWithOnePacketYieldsItsReading : Obligations.RowWithOnePacketYieldsItsReading := by
  intro s ts d idle wf len176 len readable free marker hd pairs turns
  have found : s.searchFor 0 = 0 :=
    Nat.le_zero.mp (search_le_of_match le_rfl (by omega) marker)
  have bits : s.manchAt (0 + 16) = d := manch_eq_of_pairs hd (by omega) pairs
  have read := core_run_readPacket (s := s.startScan) 1 turns rfl rfl free found len176.ge bits hd
  obtain ⟨-, -, step_pos, -⟩ := Params.bounds_of_wf wf
  have late : s.len < 0 + s.params.scanStep + 176 := by omega
  have turn : s.turns.tail.tail.tail = .engine :: ts := congrArg (·.tail.tail.tail) turns
  have last := step_findScan_of_short (s := s.startScan.dropTurn.dropTurn.dropTurn.readPacket 0 d)
    (State.nextTurn_cons turn) rfl rfl (State.searchFor_short late)
  refine ⟨s.startScan, _, exec_scanRow_accepted idle len readable,
    read.trans (core_run_next 0 last), ?_⟩
  refine ⟨rfl, rfl, rfl, ?slot, ?sanity, ?readings, ?failures, ?place, ?turns, ?raw,
    fun j => State.writeDecode_emit_resId_getLsbD _ d,
    fun j => State.writeDecode_emit_resFlags_getLsbD _ d,
    fun j => State.writeDecode_emit_resData_getLsbD _ d (k := 0) (by decide),
    fun j => State.writeDecode_emit_resData_getLsbD _ d (k := 1) (by decide),
    fun j => State.writeDecode_emit_resData_getLsbD _ d (k := 2) (by decide),
    fun j => State.writeDecode_emit_resData_getLsbD _ d (k := 3) (by decide)⟩
  all_goals simp [State.readPacket, State.startScan, hd, turns]

end Sys2Proof.Machine

namespace Sys2Proof.Machine

/-! ## The bound of a scan (O37) -/

/-- How many packets a scan of `len` bits reads at most once its search starts at `p` (R169). -/
def scanAttempts (len step p : Nat) : Nat :=
  if p + 176 ≤ len then (len - 176 - p) / step + 1 else 0

theorem scanAttempts_le_of_le {len step p q : Nat} (h : p ≤ q) :
    scanAttempts len step q ≤ scanAttempts len step p := by
  unfold scanAttempts
  split
  · rw [if_pos (by omega)]
    exact Nat.succ_le_succ (Nat.div_le_div_right (by omega))
  · exact Nat.zero_le _

/-- The search that goes on SCAN_STEP behind a match has one packet less before it (R166). -/
theorem scanAttempts_resume {len step m : Nat} (fits : m + 176 ≤ len) (step_pos : 1 ≤ step) :
    scanAttempts len step (m + step) + 1 ≤ scanAttempts len step m := by
  rw [scanAttempts, scanAttempts, if_pos fits]
  split
  · have shift : len - 176 - m = len - 176 - (m + step) + step := by omega
    rw [shift, Nat.add_div_right _ step_pos]
  · exact Nat.succ_le_succ (Nat.zero_le _)

/-- How many decodes the running scan may still count, as a reading or as a failure. -/
def State.attemptsLeft (s : State) : Nat :=
  match s.engine with
  | .idle => 0
  | .find => scanAttempts s.len s.params.scanStep s.scanPos
  | .decode | .extract => scanAttempts s.len s.params.scanStep s.matchOfs

/-- How many engine steps the running scan may still take: three for a packet, and a last FIND step. -/
def State.stepsLeft (s : State) : Nat :=
  match s.engine with
  | .idle => 0
  | .find => 3 * s.attemptsLeft + 1
  | .decode => 3 * s.attemptsLeft
  | .extract => 3 * s.attemptsLeft - 1

section
variable {s : State}

theorem State.attemptsLeft_of_find (he : s.engine = .find) :
    s.attemptsLeft = scanAttempts s.len s.params.scanStep s.scanPos := by
  simp [State.attemptsLeft, he]

theorem State.attemptsLeft_of_match (he : s.engine = .decode ∨ s.engine = .extract) :
    s.attemptsLeft = scanAttempts s.len s.params.scanStep s.matchOfs := by
  rcases he with he | he <;> simp [State.attemptsLeft, he]

theorem State.stepsLeft_of_find (he : s.engine = .find) :
    s.stepsLeft = 3 * s.attemptsLeft + 1 := by simp [State.stepsLeft, he]

theorem State.stepsLeft_of_decode (he : s.engine = .decode) :
    s.stepsLeft = 3 * s.attemptsLeft := by simp [State.stepsLeft, he]

theorem State.stepsLeft_of_extract (he : s.engine = .extract) :
    s.stepsLeft = 3 * s.attemptsLeft - 1 := by simp [State.stepsLeft, he]

end

/-- What holds of a SCAN_ROW from its acceptance on. -/
structure State.Scanning (s : State) : Prop where
  params_wf : s.params.wf = true
  mode : s.mode = .scan
  /-- An idle engine has completed the command (R25). -/
  done_of_idle : s.engine = .idle → s.done = true
  /-- Past its search, the scan has a match with a packet behind it (R167). -/
  room : s.engine = .decode ∨ s.engine = .extract → s.matchOfs + 176 ≤ s.len

/-- `t` has counted `readings` and `failures` more than `s` (R43). -/
def State.Counts (s t : State) (readings failures : Nat) : Prop :=
  t.readingCount = s.readingCount + BitVec.ofNat 32 readings ∧
  t.sanityFailCount = s.sanityFailCount + BitVec.ofNat 32 failures

theorem State.Counts.of_kept {s t : State} (readings : t.readingCount = s.readingCount)
    (failures : t.sanityFailCount = s.sanityFailCount) : s.Counts t 0 0 :=
  ⟨readings.trans (BitVec.add_zero _).symm, failures.trans (BitVec.add_zero _).symm⟩

theorem State.Counts.trans {s t u : State} {r f r' f' : Nat} (h : s.Counts t r f)
    (h' : t.Counts u r' f') : s.Counts u (r + r') (f + f') := by
  obtain ⟨readings, failures⟩ := h
  obtain ⟨readings', failures'⟩ := h'
  constructor
  · rw [readings', readings, BitVec.ofNat_add, BitVec.add_assoc]
  · rw [failures', failures, BitVec.ofNat_add, BitVec.add_assoc]

/-- From `s` to `t` a scan has used up a step, unless it had ended, and what it has counted is taken off what it may
count. -/
structure ScanProgress (s t : State) : Prop where
  scanning : t.Scanning
  steps : t.stepsLeft ≤ s.stepsLeft - 1
  counts : ∃ readings failures : Nat, s.Counts t readings failures ∧
    readings + failures + t.attemptsLeft ≤ s.attemptsLeft

section
variable {s : State} (h : s.Scanning)
include h

/-- Past its search, a scan has a packet before it. -/
theorem State.Scanning.attemptsLeft_pos (running : s.engine = .decode ∨ s.engine = .extract) :
    1 ≤ s.attemptsLeft := by
  rw [State.attemptsLeft_of_match running, scanAttempts, if_pos (h.room running)]
  exact Nat.le_add_left 1 _

/-- A scan that may take no step any more has ended. -/
theorem State.Scanning.idle_of_stepsLeft_eq_zero (none : s.stepsLeft = 0) : s.engine = .idle := by
  cases he : s.engine with
  | idle => rfl
  | find =>
    rw [State.stepsLeft_of_find he] at none
    omega
  | decode =>
    have := h.attemptsLeft_pos (.inl he)
    rw [State.stepsLeft_of_decode he] at none
    omega
  | extract =>
    have := h.attemptsLeft_pos (.inr he)
    rw [State.stepsLeft_of_extract he] at none
    omega

/-- A scan that goes back to its search has counted its packet. -/
theorem State.Scanning.resumeScan {u : State} {r f : Nat}
    (running : s.engine = .decode ∨ s.engine = .extract) (params : u.params = s.params)
    (mode : u.mode = s.mode) (len : u.len = s.len) (at_m : u.matchOfs = s.matchOfs)
    (counts : s.Counts u r f) (one : r + f = 1) : ScanProgress s u.resumeScan := by
  obtain ⟨-, -, step_pos, -⟩ := Params.bounds_of_wf h.params_wf
  have fewer := scanAttempts_resume (h.room running) step_pos
  have before := State.attemptsLeft_of_match running
  have after : u.resumeScan.attemptsLeft =
      scanAttempts s.len s.params.scanStep (s.matchOfs + s.params.scanStep) := by
    rw [State.attemptsLeft_of_find rfl, State.resumeScan_scanPos, State.resumeOfs, at_m,
      State.resumeScan_len, len, State.resumeScan_params, params]
  have steps : 3 * s.attemptsLeft - 1 ≤ s.stepsLeft := by
    rcases running with he | he
    · exact State.stepsLeft_of_decode he ▸ Nat.sub_le _ 1
    · exact (State.stepsLeft_of_extract he).ge
  have steps' : u.resumeScan.stepsLeft = 3 * u.resumeScan.attemptsLeft + 1 := rfl
  exact
    { scanning := ⟨params ▸ h.params_wf, mode.trans h.mode, nofun, nofun⟩
      steps := by omega
      counts := ⟨r, f, counts, by omega⟩ }

/-- A FIND step finds its match at or after SCAN_POS, or ends the command (R163). -/
theorem State.Scanning.findScan (he : s.engine = .find) : ScanProgress s (findScan s) := by
  rcases findScan_cases s with ⟨fits, e⟩ | ⟨_, e⟩ <;> rw [e]
  · have at_m : (s.writeMatch (s.searchFor s.scanPos)).matchOfs = s.searchFor s.scanPos :=
      State.writeMatch_matchOfs (s.searchFor_le _)
    have later : scanAttempts s.len s.params.scanStep
        (s.writeMatch (s.searchFor s.scanPos)).matchOfs ≤ s.attemptsLeft := by
      rw [at_m, State.attemptsLeft_of_find he]
      exact scanAttempts_le_of_le (State.le_searchFor_of_fits fits)
    exact
      { scanning := ⟨h.params_wf, h.mode, nofun, fun _ => at_m.symm ▸ fits⟩
        steps := State.stepsLeft_of_find he ▸ Nat.mul_le_mul_left 3 later
        counts := ⟨0, 0, .of_kept rfl rfl, (Nat.zero_add _).trans_le later⟩ }
  · exact
      { scanning := ⟨h.params_wf, h.mode, fun _ => rfl, nofun⟩
        steps := Nat.zero_le _
        counts := ⟨0, 0, .of_kept rfl rfl, Nat.zero_le _⟩ }

/-- A DECODE step keeps the match, and counts a failure before the search goes on (R164). -/
theorem State.Scanning.decodeScan (he : s.engine = .decode) : ScanProgress s (decodeScan s) := by
  rcases decodeScan_cases s with ⟨full, e⟩ | ⟨short, e⟩ <;> rw [e]
  · have same := State.attemptsLeft_of_match (.inl he)
    exact
      { scanning := ⟨h.params_wf, h.mode, nofun, fun _ => h.room (.inl he)⟩
        steps := by rw [State.stepsLeft_of_decode he, same]; exact le_rfl
        counts := ⟨0, 0, .of_kept rfl (if_pos full), ((Nat.zero_add _).trans same.symm).le⟩ }
  · exact h.resumeScan (u := s.writeDecode _) (.inl he) rfl rfl rfl rfl
      (r := 0) (f := 1) ⟨(BitVec.add_zero _).symm, if_neg short⟩ rfl

/-- Every engine step of a scan whose result slot is free makes progress. -/
theorem State.Scanning.engineStep (free : s.resValid = false) : ScanProgress s (engineStep s) := by
  cases he : s.engine with
  | idle =>
    rw [engineStep_idle he]
    have none : s.stepsLeft = 0 := by simp [State.stepsLeft, he]
    exact ⟨h, by omega, 0, 0, .of_kept rfl rfl, by omega⟩
  | find => exact engineStep_findScan he h.mode ▸ h.findScan he
  | decode => exact engineStep_decodeScan he h.mode ▸ h.decodeScan he
  | extract =>
    rw [engineStep_extractScan he h.mode free]
    exact h.resumeScan (u := s.emit) (.inr he) rfl rfl rfl rfl (r := 1) (f := 0)
      ⟨rfl, (BitVec.add_zero _).symm⟩ rfl

end

/-- One round of a scan whose host pops: the engine's turn, and the host's with its RES_POP write. -/
def State.scanRound (s : State) : State :=
  { (engineStep s.dropTurn).dropTurn with program := s.program.tail }.pop

theorem core_run_scanRound {s : State} {ts : List Turn} {rest : List HostOp} (n : Nat)
    (turns : s.turns = .engine :: .host :: ts) (stmt : s.program = popResult :: rest) :
    core.run (n + 2) s = core.run n s.scanRound ∧ s.scanRound.turns = ts ∧
    s.scanRound.program = rest := by
  obtain ⟨-, -, -, -, -, -, -, -, -, program, -, turns'⟩ := engineStep_keeps s.dropTurn
  have turns1 : (engineStep s.dropTurn).turns = .host :: ts :=
    turns'.trans (congrArg List.tail turns)
  have pop : step (engineStep s.dropTurn) = .next s.scanRound := by
    rw [step_write (State.nextTurn_cons turns1) (program.trans stmt),
      busWrite_of_decode (decode_resPop rfl _), State.scanRound, stmt]
    rfl
  rw [core_run_next _ (step_engine (State.nextTurn_cons turns)), core_run_next _ pop]
  exact ⟨rfl, congrArg List.tail turns1, congrArg List.tail stmt⟩

/-- A pop and the host's own data are no part of a scan's progress. -/
theorem State.Scanning.scanRound {s : State} (h : s.Scanning) (free : s.resValid = false) :
    ScanProgress s s.scanRound := by
  obtain ⟨⟨params_wf, mode, done_of_idle, room⟩, steps, counts⟩ :=
    State.Scanning.engineStep (s := s.dropTurn) { h with } free
  exact ⟨⟨params_wf, mode, done_of_idle, room⟩, steps, counts⟩

/-- A scan whose host pops ends within the rounds it may still take, and counts no more than it may. -/
theorem State.Scanning.ends {n : Nat} {s : State} (h : s.Scanning) (free : s.resValid = false)
    (enough : s.stepsLeft ≤ n)
    (turns : s.turns = (List.replicate n [Turn.engine, Turn.host]).flatten)
    (program : s.program = List.replicate n popResult) :
    ∃ u, core.run (2 * n) s = .next u ∧ u.Scanning ∧ u.engine = .idle ∧ u.turns = [] ∧
      ∃ readings failures : Nat, s.Counts u readings failures ∧
        readings + failures ≤ s.attemptsLeft := by
  induction n generalizing s with
  | zero =>
    have idle : s.engine = .idle := h.idle_of_stepsLeft_eq_zero (Nat.le_zero.mp enough)
    exact ⟨s, rfl, h, idle, turns, 0, 0, .of_kept rfl rfl, Nat.zero_le _⟩
  | succ n ih =>
    obtain ⟨run, turns', program'⟩ := core_run_scanRound (2 * n) turns program
    obtain ⟨scanning, steps, r, f, counts, bound⟩ := h.scanRound free
    obtain ⟨u, run', scanning', idle, used, r', f', counts', bound'⟩ :=
      ih scanning rfl (by omega) turns' program'
    exact ⟨u, run.trans run', scanning', idle, used, r + r', f + f', counts.trans counts', by omega⟩

/-- Settles O37: the accepted scan has `A` packets before it, and so `3A + 1` engine steps. -/
theorem scanRowTerminatesWithinTheBound : Obligations.ScanRowTerminatesWithinTheBound := by
  intro s A n wf idle len readable free hA enough turns program
  have attempts : s.startScan.attemptsLeft = A := by
    have start : s.startScan.attemptsLeft = scanAttempts s.len s.params.scanStep 0 := rfl
    rw [start, scanAttempts, hA, Nat.zero_add, Nat.sub_zero]
  have steps : s.startScan.stepsLeft = 3 * s.startScan.attemptsLeft + 1 := rfl
  have scanning : s.startScan.Scanning := ⟨wf, rfl, nofun, nofun⟩
  obtain ⟨u, run, scanned, ended, used, r, f, ⟨readings, failures⟩, bound⟩ :=
    scanning.ends free (n := n) (by omega) turns program
  exact ⟨s.startScan, u, exec_scanRow_accepted idle len readable, run, ended,
    scanned.done_of_idle ended, scanned.mode, used, r, f, attempts ▸ bound, readings, failures⟩

end Sys2Proof.Machine

namespace Sys2Proof.Machine

/-! ## NOP and CLEAR_COUNTS (O6, O7) -/

/-- A CMD word with a reserved bit set is no command (R81, R86). -/
theorem decode_reservedBit {v : Word} (reserved : v.extractLsb' 4 28 ≠ 0#28) :
    decode ⟨Reg.addr .cmd, v⟩ = .error .illegalCmd :=
  decode_illegalCmd (regAt_of_wordAddr (Reg.wordAddr_addr .cmd))
    ((decodeCmd_eq_none_iff v).mpr (.inl reserved))

/-- Settles O6: acceptance with DONE set, or the rejection of every command while one runs; 0 is NOP's word. -/
theorem nopSetsDoneAndClearsErr : Obligations.NopSetsDoneAndClearsErr :=
  ⟨fun _ idle => exec_nop_of_idle idle,
    fun s running => exec_command_of_busy (v := 0#32) rfl (s.busy_iff.mpr running),
    decode_encode .nop, fun _ reserved => decode_reservedBit reserved⟩

/-- Settles O7: as NOP, with the counters cleared; 5 is CLEAR_COUNTS's word. -/
theorem clearCountsClearsBothCounters : Obligations.ClearCountsClearsBothCounters :=
  ⟨fun _ idle => exec_clearCounts_of_idle idle,
    fun s running => exec_command_of_busy (v := 5#32) rfl (s.busy_iff.mpr running),
    decode_encode .clearCounts, fun _ reserved => decode_reservedBit reserved⟩

/-! ## The RES_POP and STATUS writes (O8, O9) -/

theorem exec_resPop (s : State) (v : Word) : exec (.resPop v) s = .next s.pop := rfl

/-- An empty result slot stays as it is (R182). -/
theorem State.pop_of_empty {s : State} (empty : s.resValid = false) : s.pop = s := by
  rw [State.pop, ← empty]

/-- With the result slot free, a running engine is not held (R71). -/
theorem State.engineEnabled_pop {s : State} (running : s.engine ≠ .idle) :
    s.pop.engineEnabled = true :=
  s.pop.engineEnabled_iff.mpr ⟨running, fun ⟨_, full⟩ => Bool.false_ne_true full⟩

/-- Settles O8: the write is a pop, which frees an engine held by a full slot. -/
theorem resPopReleasesTheResultSlot : Obligations.ResPopReleasesTheResultSlot := by
  refine ⟨exec_resPop, fun s v empty => ?_, fun s t v held h => ?_⟩
  · rw [exec_resPop, State.pop_of_empty empty]
  · obtain rfl : s.pop = t := Host.Outcome.next.inj h
    exact State.engineEnabled_pop (by rw [held]; nofun)

/-- A STATUS write with bit 2 set clears DONE (R183). -/
theorem exec_statusW1c_of_set (s : State) {v : Word} (bit : v.getLsbD 2 = true) :
    exec (.statusW1c v) s = .next { s with done := false } := by
  rw [exec, execStatusW1c, clearsDone, bit, Bool.not_true, Bool.and_false]

/-- Any other STATUS write changes nothing (R183). -/
theorem exec_statusW1c_of_unset (s : State) {v : Word} (bit : v.getLsbD 2 = false) :
    exec (.statusW1c v) s = .next s := by
  rw [exec, execStatusW1c, clearsDone, bit, Bool.not_false, Bool.and_true]

/-- Without DONE, irq is the result source alone (R205). -/
theorem State.irq_of_not_done {s : State} (notDone : s.done = false) :
    s.irq = (s.resValid && s.irqEn.getLsbD 1) := by
  rw [State.irq, notDone, Bool.false_and, Bool.false_or, State.resIe]

/-- Settles O9: bit 2 decides, and DONE cleared takes its source out of irq. -/
theorem statusWriteClearsDoneByBitTwo : Obligations.StatusWriteClearsDoneByBitTwo := by
  refine ⟨fun s _ bit => exec_statusW1c_of_set s bit, fun s _ bit => exec_statusW1c_of_unset s bit,
    fun s t v bit h => ?_⟩
  obtain rfl := Host.Outcome.next.inj ((exec_statusW1c_of_set s bit).symm.trans h)
  exact State.irq_of_not_done rfl

/-! ## The storing writes (O44) -/

/-- The two enables of IRQ_EN are the low bits of the data written there (R31, R184). -/
theorem State.irq_load_irqEn (s : State) (v : Word) :
    (s.load .irqEn v).irq = ((s.done && v.getLsbD 0) || (s.resValid && v.getLsbD 1)) := by
  simp [State.irq, State.doneIe, State.resIe, State.load, low2]

/-- On an idle block the busy guard lets a write pass (R53). -/
theorem busWrite_load_of_idle {s stored : State} (idle : s.engine = .idle) (r : LoadReg)
    (v : Word) (guarded : s.load r v = s.guarded stored) :
    busWrite r.reg.addr v s = .next stored := by
  rw [busWrite_load (regAt_of_wordAddr (Reg.wordAddr_addr _)), guarded, State.guarded_of_idle idle]

/-- Settles O44: each storing write by its register, and RAW[w] by the laws of `State.writeRaw`. -/
theorem operandWritesStoreWhileIdle : Obligations.OperandWritesStoreWhileIdle := by
  intro s v
  refine ⟨busWrite_load (r := .irqEn) (regAt_of_wordAddr rfl) v s, s.irq_load_irqEn v,
    fun idle => ⟨busWrite_load_of_idle idle .rowLen v rfl, busWrite_load_of_idle idle .start v rfl,
      busWrite_load_of_idle idle .rowIdx v rfl, fun w wf hw => ⟨?_, ?_, fun a outside => ?_⟩⟩⟩
  · exact (busWrite_rawAddr wf hw v).trans (by rw [State.guarded_of_idle idle])
  · exact s.rawWord_writeRaw_same w v
  · exact s.rawByte_writeRaw_other w v a outside

end Sys2Proof.Machine

namespace Sys2Proof.Machine

/-! ## The refusals of a long row and of a missing payload (O18, O19) -/

/-- A row longer than the storage stops a command at the third check of R80, whatever RAW holds (R202). -/
theorem whenRowOk_of_long {s : State} (k : Result) (long : s.params.rowMaxBits < s.len) :
    whenRowOk s k = .next (s.reject .badLen) :=
  if_pos long

/-- The three commands that read the row share R80's checks, and each starts the engine once they let it through (R83). -/
theorem exec_rowCommand_eq {i : Instr} (reads : i ∈ [.scanRow, .find, .decode]) (s : State) :
    ∃ t, exec i s = whenIdle s (whenRowOk s (.next t)) ∧ t.err = .none ∧ t.done = false ∧
      t.engine ≠ .idle := by
  cases i with
  | scanRow => exact ⟨{ s.startEngine .scan .find with scanPos := 0 }, rfl, rfl, rfl, nofun⟩
  | find => exact ⟨s.startEngine .single .find, rfl, rfl, rfl, nofun⟩
  | decode => exact ⟨s.startEngine .single .decode, rfl, rfl, rfl, nofun⟩
  | nop | extract | clearCounts | resPop | statusW1c => simp at reads

/-- The BUSY check reads no ROW_LEN: a change of it goes through wherever it goes through the checks behind (R80). -/
theorem whenIdle_with_rowLen {s t : State} {k k' : Result} {len : BitVec 16}
    (h : whenIdle s k = .next t)
    (behind : k = .next t → k' = .next { t with rowLen := len }) :
    whenIdle { s with rowLen := len } k' = .next { t with rowLen := len } := by
  rcases whenIdle_next h with ⟨busy, rfl⟩ | ⟨idle, hk⟩
  · exact whenIdle_of_busy _ busy
  · exact (whenIdle_of_idle (s := { s with rowLen := len }) _ idle).trans (behind hk)

/-- The check of EXTRACT reads SANITY_OK only (R203). -/
theorem whenPayloadOk_with_rowLen {s t u : State} {len : BitVec 16}
    (h : whenPayloadOk s (.next u) = .next t) :
    whenPayloadOk { s with rowLen := len } (.next { u with rowLen := len }) =
      .next { t with rowLen := len } := by
  rcases whenPayloadOk_next h with ⟨missing, rfl⟩ | ⟨payload, hu⟩
  · exact if_neg (Bool.eq_false_iff.mp missing)
  · cases hu; exact if_pos payload

/-- The commands that do not read the row do the same for every ROW_LEN (R202). -/
theorem exec_with_rowLen {i : Instr} {s t : State} (len : BitVec 16)
    (ignores : i ∈ [.nop, .extract, .clearCounts]) (h : exec i s = .next t) :
    exec i { s with rowLen := len } = .next { t with rowLen := len } := by
  cases i with
  | nop | clearCounts => exact whenIdle_with_rowLen h fun hk => by cases hk; rfl
  | extract => exact whenIdle_with_rowLen h whenPayloadOk_with_rowLen
  | scanRow | find | decode | resPop | statusW1c => simp at ignores

/-- Settles O18: the third check of R80 for the three commands that read the row, and `exec_with_rowLen` for the rest. -/
theorem rowLongerThanStorageIsRefused : Obligations.RowLongerThanStorageIsRefused := by
  refine ⟨fun s i reads idle long => ?_, fun s t i len => exec_with_rowLen len,
    fun s i reads idle full readable => ?_⟩
  · obtain ⟨t, answer, -⟩ := exec_rowCommand_eq reads s
    rw [answer, whenIdle_of_idle _ (s.not_busy_iff.mpr idle), whenRowOk_of_long _ long]
    rfl
  · obtain ⟨t, answer, err, -, running⟩ := exec_rowCommand_eq reads s
    exact ⟨t, answer.trans (rowCommand_accepted idle full.le readable _), err, running⟩

/-- Settles O19: the two answers of `exec_extract_of_idle`. -/
theorem extractWithoutPayloadIsRefused : Obligations.ExtractWithoutPayloadIsRefused := by
  refine ⟨fun s idle missing => ?_, fun s idle payload => ?_⟩ <;> rw [exec_extract_of_idle idle]
  · rw [if_pos missing]; rfl
  · rw [if_neg (by simp [payload])]; rfl

/-! ## The interrupt level (O49) -/

/-- With the result slot empty, irq is the command-complete source alone (R205). -/
theorem State.irq_of_empty {s : State} (empty : s.resValid = false) :
    s.irq = (s.done && s.irqEn.getLsbD 0) := by
  rw [State.irq, empty, Bool.false_and, Bool.or_false, State.doneIe]

/-- IRQ_EN reads the two enables at its bits 0 and 1 (R31). -/
theorem busRead_irqEn_getLsbD (s : State) {j : Nat} (hj : j < 2) :
    (busRead s 0x008#16).getLsbD j = s.irqEn.getLsbD j := by
  have read : busRead s 0x008#16 = s.irqEn.setWidth 32 := rfl
  rw [read, BitVec.getLsbD_setWidth, decide_eq_true (by omega), Bool.true_and]

/-- An engine command that an idle block does not reject has cleared DONE (R83). -/
theorem exec_engineCommand_done {i : Instr} {s t : State}
    (engine : i ∈ [.scanRow, .find, .decode, .extract]) (idle : s.engine = .idle)
    (h : exec i s = .next t) (accepted : t.err = .none) : t.done = false := by
  by_cases extract : i = .extract
  · subst extract
    rw [exec_extract_of_idle idle] at h
    split at h <;> cases h
    · exact nomatch accepted
    · rfl
  · obtain ⟨u, answer, -, done, -⟩ := exec_rowCommand_eq (by simpa [extract] using engine) s
    rw [answer, whenIdle_of_idle _ (s.not_busy_iff.mpr idle)] at h
    rcases whenRowOk_next h with ⟨-, rfl⟩ | ⟨-, -, hu⟩
    · exact nomatch accepted
    · cases hu; exact done

/-- Settles O49: irq reads IRQ_EN as the bus does, and each event takes out the source whose STATUS bit it clears. -/
theorem interruptLevelFollowsItsTwoSources : Obligations.InterruptLevelFollowsItsTwoSources := by
  obtain ⟨-, -, doneCleared⟩ := statusWriteClearsDoneByBitTwo
  refine ⟨fun s => ?_, rfl, fun s t v h => ?_, fun s t i engine idle h accepted => ?_, doneCleared⟩
  · rw [busRead_irqEn_getLsbD s (by decide), busRead_irqEn_getLsbD s (by decide)]
    rfl
  · obtain rfl : s.pop = t := Host.Outcome.next.inj h
    exact State.irq_of_empty rfl
  · obtain ⟨-, -, -, -, irqEn⟩ := (exec_effect h).keeps_stored
    have resValid := (exec_effect h).keeps_resValid (by rintro v rfl; simp at engine)
    rw [State.irq_of_not_done (exec_engineCommand_done engine idle h accepted), resValid, irqEn]

end Sys2Proof.Machine

namespace Sys2Proof.Machine

/-! ## Reset and the invariant after it (O48, O50) -/

/-- A bus read at a register's own address reads that register (R67). -/
theorem busRead_addr (s : State) (r : Reg) : busRead s r.addr = s.readReg r := by
  rw [busRead, regAt_of_wordAddr r.wordAddr_addr]

/-- After a reset every register but the parameters reads 0, whatever a power-on makes of RAW (R50, R230). -/
theorem State.readReg_reset {r : Reg} (not0 : r ≠ .param0) (not1 : r ≠ .param1) (s : State)
    (raw : Memory) (powerOns : Nat) :
    State.readReg { s.resetBlock with raw := raw, powerOns := powerOns } r = 0#32 := by
  cases r with
  | param0 => exact absurd rfl not0
  | param1 => exact absurd rfl not1
  | status => exact (by decide : State.reset.statusWord = 0#32)
  | payload2 => exact (by decide : 0#16 ++ 0#16 = 0#32)
  | _ => rfl

/-- Settles O48: rst steps to `resetBlock` and a power-on to `powerOn`, which differ in RAW and its index only. -/
theorem resetClearsRegistersAndKeepsRaw : Obligations.ResetClearsRegistersAndKeepsRaw := by
  rintro s (turn | turn)
  · refine ⟨s.dropTurn.resetBlock, by rw [step, turn, takeTurn], rfl, fun _ => ⟨rfl, fun _ => rfl⟩,
      rfl, rfl, rfl, rfl, fun r not0 not1 => ?_, rfl, rfl, rfl⟩
    exact (busRead_addr _ r).trans (State.readReg_reset not0 not1 s.dropTurn s.raw s.powerOns)
  · refine ⟨s.dropTurn.powerOn, by rw [step, turn, takeTurn], rfl,
      fun rst => absurd (turn.symm.trans rst) nofun, rfl, rfl, rfl, rfl, fun r not0 not1 => ?_, rfl, rfl,
      rfl⟩
    exact (busRead_addr _ r).trans (State.readReg_reset not0 not1 s.dropTurn [] (s.powerOns + 1))

/-- Settles O50: the default parameters are legal, RAW lists nothing, and every other field speaks of zeros or of a
running engine. -/
theorem resetMeetsTheInvariant : Obligations.ResetMeetsTheInvariant where
  params_wf := (by decide : Params.default.wf = true)
  raw_wf := State.wf_reset
  raw_inWindow := nofun
  scanPos_lt := Nat.two_pow_pos 17
  decCount_le := Nat.zero_le _
  sanity_iff := by simp [State.reset]
  integrity := (by decide : (0#10).extractLsb' 8 2 = 0#2)
  done_of_busy := nofun
  len_of_reading := nofun
  payload_of_extract := nofun
  room_of_scan := nofun

/-! ## Where a step stops (O20) -/

/-- A row is unreadable exactly in a build with treatment (b) and with a word of it unwritten (D35). -/
theorem State.rowReadable_eq_false_iff (s : State) :
    s.rowReadable = false ↔ s.params.rawTreatment = .unwrittenFaults ∧ s.rowWritten = false := by
  cases treatment : s.params.rawTreatment <;> simp [State.rowReadable, treatment]

/-- A row of legal length that may not be read faults at acceptance (log 11). -/
theorem whenRowOk_of_unreadable {s : State} (k : Result) (len : s.len ≤ s.params.rowMaxBits)
    (unreadable : s.rowReadable = false) : whenRowOk s k = .fault .unwrittenRow := by
  simp [whenRowOk, unreadable, Nat.not_lt.mpr len]

theorem whenIdle_ne_refused {s : State} {k : Result} {r : Refusal} (hk : k ≠ .refused r) :
    whenIdle s k ≠ .refused r := by
  unfold whenIdle
  split
  · exact nofun
  · exact hk

theorem whenRowOk_ne_refused {s t : State} {r : Refusal} :
    whenRowOk s (.next t) ≠ .refused r := by
  unfold whenRowOk
  split
  · exact nofun
  · split <;> exact nofun

theorem whenPayloadOk_ne_refused {s t : State} {r : Refusal} :
    whenPayloadOk s (.next t) ≠ .refused r := by
  unfold whenPayloadOk
  split <;> exact nofun

/-- Every instruction has its meaning: none is refused. -/
theorem exec_ne_refused (i : Instr) (s : State) (r : Refusal) : exec i s ≠ .refused r := by
  cases i with
  | nop | clearCounts => exact whenIdle_ne_refused nofun
  | scanRow | find | decode => exact whenIdle_ne_refused whenRowOk_ne_refused
  | extract => exact whenIdle_ne_refused whenPayloadOk_ne_refused
  | resPop | statusW1c => exact nofun

theorem busWrite_ne_refused (a : BusAddr) (v : Word) (s : State) (r : Refusal) :
    busWrite a v s ≠ .refused r := by
  unfold busWrite
  split
  · exact exec_ne_refused _ s r
  · exact whenIdle_ne_refused nofun
  all_goals exact nofun

/-- Only a bus write runs an instruction, so no step is refused. -/
theorem step_ne_refused (s : State) (r : Refusal) : step s ≠ .refused r := by
  unfold step
  cases s.nextTurn with
  | host =>
    simp only [takeTurn, hostStep]
    split
    · exact nofun
    · next a v rest _ => exact busWrite_ne_refused a v _ r
    all_goals exact nofun
  | engine | reset | powerOn => exact nofun

/-- Settles O20: the row check faults for the three commands, a faulting step is traced back to that check through its
bus write, and no step is refused. -/
theorem onlyAnUnwrittenRowFaults : Obligations.OnlyAnUnwrittenRowFaults := by
  refine ⟨fun s i reads idle len treatment unwritten => ?_, fun s f h => ?_, step_ne_refused⟩
  · obtain ⟨t, answer, -⟩ := exec_rowCommand_eq reads s
    rw [answer, whenIdle_of_idle _ (s.not_busy_iff.mpr idle)]
    exact whenRowOk_of_unreadable _ len (s.rowReadable_eq_false_iff.mpr ⟨treatment, unwritten⟩)
  · obtain ⟨turn, a, v, rest, stmt, write⟩ := step_fault h
    obtain ⟨i, dec, run⟩ := busWrite_fault write
    obtain ⟨reads, fault, idle, len, unreadable⟩ := exec_fault run
    obtain ⟨treatment, unwritten⟩ := s.rowReadable_eq_false_iff.mp unreadable
    exact ⟨fault, treatment, unwritten, turn, idle, len, a, v, rest, i, stmt, dec, reads⟩

end Sys2Proof.Machine
